-- ==== Sys2Proof/Word.lean ====
section
/-! DEFINITION. The word types of flex_core (00_scope R11): every value is an unsigned bit vector of a stated width. -/

namespace Sys2Proof

/-- A byte of a buffer or of the channel (00_scope R12). -/
abbrev Byte := BitVec 8

/-- A register, a bus word, a codeword: 32 bits (10_state, opening text; 30_encoding R80). -/
abbrev Word := BitVec 32

/-- A byte offset of the host register space (20_memory R60). -/
abbrev Offset := BitVec 16

/-- A 21-bit message body or address (30_encoding R86, R87; 00_scope R8 BODY_W, ADDR_W). -/
abbrev Body := BitVec 21

/-- A 20-bit data field of a message word (00_scope R8 DATA_W). -/
abbrev DataField := BitVec 20

end Sys2Proof
end

