-- ==== Sys2Proof/Syntax.lean ====
section
/-! DEFINITION. The ops of flex_core: one constructor per row of spec/opcode_table.json (30_encoding R82). -/

namespace Sys2Proof

/-- The eleven ops. Their operands are registers and buffers (30_encoding R92), so only AT_EXEC carries a field of its
command word: the four FLAGS bits (30_encoding R81, R83). -/
inductive Instr where
  /-- opcode 0x00 (40_codeword R107) -/
  | nop
  /-- opcode 0x01 (40_codeword R108) -/
  | cwCrc
  /-- opcode 0x02 (40_codeword R109) -/
  | cwParity
  /-- opcode 0x03 (40_codeword R110) -/
  | cwEncode
  /-- opcode 0x04 (40_codeword R111) -/
  | cwAddr
  /-- opcode 0x05 (40_codeword R112) -/
  | cwCheck
  /-- opcode 0x10 (41_framer R152) -/
  | frText
  /-- opcode 0x11 (41_framer R151) -/
  | frFrame
  /-- opcode 0x20 (42_at_sequencer R195) -/
  | atProbe
  /-- opcode 0x21 (42_at_sequencer R196); `flags` is command bits 11:8: bit 0 NOPROBE, bit 1 MARK -/
  | atExec (flags : BitVec 4)
  /-- opcode 0x22 (42_at_sequencer R209) -/
  | atRaw
deriving DecidableEq, Repr

end Sys2Proof
end

