-- ==== Sys2Proof/WellFormed.lean ====
section
/-! DEFINITION. Which terms of `Instr` are ops that a command word can ask for. -/

namespace Sys2Proof

/-- AT_EXEC's FLAGS[3:2] "must be 0" (30_encoding R83); no other op has a field to check. -/
def WellFormed : Instr → Bool
  | .nop | .cwCrc | .cwParity | .cwEncode | .cwAddr | .cwCheck | .frText | .frFrame | .atProbe | .atRaw => true
  | .atExec flags => flags.extractLsb' 2 2 == 0

end Sys2Proof
end

