-- ==== Sys2Proof/Decode.lean ====
section
/-! DEFINITION. The decoder of command words (30_encoding R81 to R84) and, after it, the encoder. -/

namespace Sys2Proof

/-- Command bits 7:0 (30_encoding R81). -/
def opcodeField (v : Word) : BitVec 8 := v.extractLsb' 0 8

/-- Command bits 11:8 (30_encoding R81). -/
def flagsField (v : Word) : BitVec 4 := v.extractLsb' 8 4

/-- Command bits 31:12, which must be 0 (30_encoding R81). -/
def rsvdField (v : Word) : BitVec 20 := v.extractLsb' 12 20

/-- Why a command word is refused, in the order of 30_encoding R84. Each ends in BAD_COMMAND. -/
inductive DecodeError where
  /-- `v[31:12] != 0` -/
  | rsvdNotZero
  /-- the OPCODE is not in the table of 30_encoding R82 -/
  | unknownOpcode
  /-- FLAGS are set on an op that defines none -/
  | flagsNotAllowed
  /-- AT_EXEC with FLAGS[3:2] set -/
  | execFlagsReserved
deriving DecidableEq, Repr

/-- The opcode map of 30_encoding R82, with the FLAGS passed on to AT_EXEC. -/
def opOfOpcode (opc : BitVec 8) (fl : BitVec 4) : Option Instr :=
  match opc.toNat with
  | 0x00 => some .nop
  | 0x01 => some .cwCrc
  | 0x02 => some .cwParity
  | 0x03 => some .cwEncode
  | 0x04 => some .cwAddr
  | 0x05 => some .cwCheck
  | 0x10 => some .frText
  | 0x11 => some .frFrame
  | 0x20 => some .atProbe
  | 0x21 => some (.atExec fl)
  | 0x22 => some .atRaw
  | _ => none

/-- The checks of 30_encoding R84, in its order. -/
def decode (v : Word) : Except DecodeError Instr :=
  if rsvdField v ≠ 0 then .error .rsvdNotZero
  else match opOfOpcode (opcodeField v) (flagsField v) with
    | none => .error .unknownOpcode
    | some i =>
      if opcodeField v ≠ 0x21 ∧ flagsField v ≠ 0 then .error .flagsNotAllowed
      else if opcodeField v = 0x21 ∧ (flagsField v).extractLsb' 2 2 ≠ 0 then .error .execFlagsReserved
      else .ok i

/-- The OPCODE of an op (30_encoding R82). -/
def opcodeOf : Instr → BitVec 8
  | .nop => 0x00
  | .cwCrc => 0x01
  | .cwParity => 0x02
  | .cwEncode => 0x03
  | .cwAddr => 0x04
  | .cwCheck => 0x05
  | .frText => 0x10
  | .frFrame => 0x11
  | .atProbe => 0x20
  | .atExec _ => 0x21
  | .atRaw => 0x22

/-- The FLAGS of an op (30_encoding R83). -/
def flagsOf : Instr → BitVec 4
  | .atExec flags => flags
  | .nop | .cwCrc | .cwParity | .cwEncode | .cwAddr | .cwCheck | .frText | .frFrame | .atProbe | .atRaw => 0

/-- The command word of an op (30_encoding R81): RSVD 0, then FLAGS, then OPCODE. -/
def encode (i : Instr) : Word := (0 : BitVec 20) ++ flagsOf i ++ opcodeOf i

/-- The op the decoder reads from a table row's bits. A command is one 32-bit word with no operand words (30_encoding
R91), so the row's bits are the word. -/
def decodeTableWord (nbits w : Nat) : Option Instr :=
  match decode (BitVec.ofNat 32 (w % 2 ^ nbits)) with
  | .ok i => some i
  | .error _ => none

end Sys2Proof
end

