-- ==== Sys2Proof/Config.lean ====
section
/-! DEFINITION. What an implementation fixes: the open parameters P_ of 00_scope R10, and the free values. -/

namespace Sys2Proof

/-- P_BCD_BIT_ORDER (00_scope R10): the order of a BCD code's bits in the data field. -/
inductive BcdBitOrder where
  | lsbFirst
  | msbFirst
deriving DecidableEq, Repr, Inhabited

/-- The configuration parameters of 00_scope R10, which the spec leaves OPEN. Durations and counts that a 32-bit
counter of 10_state R46 or R47 holds have 32 bits (DEDUCED, log 6). -/
structure Params where
  /-- P_SETTLE_MS -/
  settleMs : Word
  /-- P_ERR_BACKOFF_MS -/
  errBackoffMs : Word
  /-- P_INV_BACKOFF_MS -/
  invBackoffMs : Word
  /-- P_FRESH_MS -/
  freshMs : Word
  /-- P_POLL_MS -/
  pollMs : Word
  /-- P_MAX_EMPTY_POLLS; 0 disables the cap -/
  maxEmptyPolls : Word
  /-- P_PROBE_CMD -/
  probeCmd : List Byte
  /-- P_PROBE_TIMEOUT_MS -/
  probeTimeoutMs : Word
  /-- P_CHUNK -/
  chunk : Nat
  /-- P_PACE_MS -/
  paceMs : Word
  /-- P_PAYLOAD_TIMEOUT_MS -/
  payloadTimeoutMs : Word
  /-- P_RAW_SETTLE_MS -/
  rawSettleMs : Word
  /-- P_DEFAULT_TIMEOUT_MS -/
  defaultTimeoutMs : Word
  /-- P_DEFAULT_RETRIES -/
  defaultRetries : BitVec 8
  /-- P_RXQ_CAP -/
  rxqCap : Nat
  /-- P_BCD_MAP beyond the digits and the space: the further characters the map defines as numeric, with their
  codes; every byte listed nowhere maps to 0xF (41_framer R135). The first entry for a byte counts (log 6). -/
  bcdExtra : List (Byte × BitVec 4)
  /-- P_BCD_BIT_ORDER -/
  bcdBitOrder : BcdBitOrder
deriving DecidableEq, Repr, Inhabited

/-- The constraints of 00_scope R10's table. CMD_CAP = 256 (00_scope R9) bounds the probe command. -/
def Params.ok (p : Params) : Bool :=
  p.errBackoffMs < p.invBackoffMs && p.pollMs != 0 &&
    (1 ≤ p.probeCmd.length && p.probeCmd.length ≤ 256) &&
    1 ≤ p.chunk && p.payloadTimeoutMs != 0 && p.defaultRetries != 0 && 1 ≤ p.rxqCap

/-- The "vector default" column of 00_scope R10, which only 95_test_vectors.md uses (R17: no rule may assume it). -/
def Config.vectorDefaults : Params where
  settleMs := 2
  errBackoffMs := 5
  invBackoffMs := 10
  freshMs := 1000
  pollMs := 10
  maxEmptyPolls := 0
  probeCmd := [0x41, 0x54, 0x0D, 0x0A]
  probeTimeoutMs := 20
  chunk := 16
  paceMs := 1
  payloadTimeoutMs := 1000
  rawSettleMs := 3
  defaultTimeoutMs := 100
  defaultRetries := 3
  rxqCap := 1024
  bcdExtra := []
  bcdBitOrder := .lsbFirst

/-- An uninterpreted choice of the parameters. It has no body, so nothing can be proved of its value (log 5). -/
opaque Config.raw : Params

/-- The parameters of the machine that `State.reset` starts: any legal choice. An illegal uninterpreted choice is
replaced by a legal one, so that only the constraints of 00_scope R10 are known of it (log 5). -/
def Config.params : Params :=
  if Config.raw.ok then Config.raw else Config.vectorDefaults

/-- What the buffer byte at host offset `a` holds after the `n`-th reset release: a free value (70_reset R271: the
buffers "may hold any value"). It has no body (log 8). -/
opaque Config.ramAfterReset : Nat → Nat → Byte

end Sys2Proof
end

