-- ==== Sys2Proof/Machine/State.lean ====
section
/-! DEFINITION. The state of flex_core: every register, buffer and hidden variable of 10_state, the parameters it was
built with, and the environment's side of the machine (events presented, outputs emitted). -/

namespace Sys2Proof.Machine

/-- RESULT codes (60_exceptions R240). Codes 8 to 15 are never produced (30_encoding R90). -/
inductive Result where
  | ok
  | protocolError
  | timeoutError
  | channelError
  | deviceNotReady
  | encodingError
  | cancelled
  | badCommand
deriving DecidableEq, Repr

/-- OUTCOME codes (30_encoding R88). Codes 6 to 15 are never produced. -/
inductive OutcomeCode where
  | none
  | ok
  | error
  | data
  | timeout
  | invalid
deriving DecidableEq, Repr

/-- The five outcomes of a receive (42_at_sequencer R182). -/
inductive RxOutcome where
  | ok
  | error
  | data
  | timeout
  | invalid
deriving DecidableEq, Repr

/-- `st` (10_state R40, R47). -/
inductive SeqState where
  | idle
  | xDrain
  | xSettle
  | xRecv
  | backoff
  | rawDrain
  | rawPace
  | rawSettle
  | rawRecv
deriving DecidableEq, Repr

/-- `kind` (10_state R40, R47). -/
inductive Kind where
  | none
  | soloProbe
  | readyProbe
  | cmd
  | retryProbe
  | raw
deriving DecidableEq, Repr

/-- `op` (10_state R47). -/
inductive RunningOp where
  | none
  | probe
  | exec
  | raw
deriving DecidableEq, Repr

/-- Input events (42_at_sequencer R170) and the two edges of the reset input (70_reset R270; log 9). -/
inductive Event where
  | hostWrite (off : Offset) (v : Word)
  | hostRead (off : Offset)
  | tick
  | rx (b : Byte)
  | chErr
  | drainDone
  | resetAssert
  | resetRelease
deriving DecidableEq, Repr

/-- Output events (42_at_sequencer R171). -/
inductive OutEvent where
  | flush
  | tx (b : Byte)
  | drainReq
deriving DecidableEq, Repr

/-- The fields of STATUS (10_state R23). The word a host reads is computed from them (`statusWord`). -/
structure Status where
  busy : Bool
  done : Bool
  aliveValid : Bool
  dataValid : Bool
  result : Result
  outcome : OutcomeCode
  busErr : Bool
  cmdRej : Bool
  rxqOvf : Bool
  lineOvf : Bool
  cancelPend : Bool
  cherrIgn : Bool
  attempts : BitVec 8
deriving DecidableEq, Repr

/-- The stored bits of the other registers of 10_state R21. CMD stores nothing (R22) and AT_STATE is a view of `st` and
`kind` (R40). -/
structure Regs where
  /-- CTRL.IRQ_EN (10_state R26) -/
  irqEn : Bool
  /-- NOW (10_state R27) -/
  now : Word
  /-- ARG0, ARG1 (10_state R28) -/
  arg0 : Word
  arg1 : Word
  /-- RES0, RES1 (10_state R29) -/
  res0 : Word
  res1 : Word
  /-- FR_ADDR (10_state R30) -/
  frAddr : Word
  /-- FR_CFG bits 2:0 (10_state R31): FUNC in 1:0, BITORDER in 2 -/
  frCfg : BitVec 3
  /-- FR_REPEAT (10_state R32) -/
  frRepeat : Word
  /-- TXT_LEN, TXT_MAX (10_state R33) -/
  txtLen : Word
  txtMax : Word
  /-- OUT_LEN, FR_TEXTWORDS (10_state R34) -/
  outLen : Word
  frTextwords : Word
  /-- AT_CMDLEN, AT_TIMEOUT, AT_RETRIES[7:0], AT_MARKLEN (10_state R35) -/
  atCmdlen : Word
  atTimeout : Word
  atRetries : BitVec 8
  atMarklen : Word
  /-- RESP_LEN (10_state R36) -/
  respLen : Word
  /-- NOISE_CNT, INFO_CNT, IGN_CNT (10_state R37) -/
  noiseCnt : Word
  infoCnt : Word
  ignCnt : Word
  /-- LAST_ALIVE (10_state R38) -/
  lastAlive : Word
  /-- RAW_PROGRESS (10_state R39) -/
  rawProgress : Word
deriving DecidableEq, Repr

/-- The parser state (10_state R46). -/
structure Parser where
  line : List Byte
  payload : Option (List Byte)
  /-- `T`, the timeout budget of this receive -/
  budget : Word
  remaining : Word
  pollTicks : Word
  emptyPolls : Word
deriving DecidableEq, Repr

/-- The sequencer control state (10_state R47). -/
structure Seq where
  st : SeqState
  kind : Kind
  op : RunningOp
  waitLeft : Word
  maxAtt : BitVec 8
  tmo : Word
  noprobe : Bool
  mark : Bool
  rawN : Word
  rawPos : Word
  rawCur : Word
  rawElapsed : Word
deriving DecidableEq, Repr

/-- The bytes of the buffers TXT, CMDBUF, MARKER, RESP and OUT (10_state R41 to R44), keyed by host byte offset, in
one canonical form (`Memory.wf`). -/
abbrev Memory := List Host.Cell

/-- The whole machine. `cfg`, `inbox`, `trace`, `rdata` and `resets` are the model's own fields (INVENTORY, State). -/
structure State where
  /-- the parameters of 00_scope R10; no step changes them (log 5) -/
  cfg : Params
  /-- STATUS (10_state R23) -/
  status : Status
  /-- the registers of 10_state R21 -/
  regs : Regs
  /-- the buffers (10_state R41 to R44) -/
  mem : Memory
  /-- RXQ (10_state R45), oldest byte first -/
  rxq : List Byte
  /-- 10_state R46 -/
  parser : Parser
  /-- 10_state R47 -/
  seq : Seq
  /-- the level of the reset input (70_reset R270) -/
  inReset : Bool
  /-- the number of reset releases so far, which indexes the free RAM contents (log 8) -/
  resets : Nat
  /-- the input events presented and not yet applied, in the environment's order (42_at_sequencer R172; log 1) -/
  inbox : List Event
  /-- the channel output trace (00_scope R13; 42_at_sequencer R171; log 4) -/
  trace : List OutEvent
  /-- the word the last served host read returned (20_memory R61; log 4) -/
  rdata : Word
deriving DecidableEq, Repr

/-- The block has no traps: every failure is a RESULT code (60_exceptions R248). So no step ends in a fault and the type
has no constructor. -/
inductive Fault where
deriving DecidableEq, Repr

/-- The reasons for a refusal. -/
inductive Refusal where
  /-- Raised only by an arm of `exec` whose op has no meaning yet; safe. No arm raises it: every op has its meaning. -/
  | notModelled (mnemonic : String)
deriving DecidableEq, Repr

/-- STATUS = 0 (70_reset R270). -/
def Status.reset : Status where
  busy := false
  done := false
  aliveValid := false
  dataValid := false
  result := .ok
  outcome := .none
  busErr := false
  cmdRej := false
  rxqOvf := false
  lineOvf := false
  cancelPend := false
  cherrIgn := false
  attempts := 0

/-- The reset column of 10_state R21 (70_reset R270) of a block built with parameters `p`. -/
def Regs.reset (p : Params) : Regs where
  irqEn := false
  now := 0
  arg0 := 0
  arg1 := 0
  res0 := 0
  res1 := 0
  frAddr := 0
  frCfg := 0
  frRepeat := 0
  txtLen := 0
  txtMax := 1024
  outLen := 0
  frTextwords := 0
  atCmdlen := 0
  atTimeout := p.defaultTimeoutMs
  atRetries := p.defaultRetries
  atMarklen := 0
  respLen := 0
  noiseCnt := 0
  infoCnt := 0
  ignCnt := 0
  lastAlive := 0
  rawProgress := 0

/-- 10_state R46: "`line` = [], `payload` = none and every count 0". -/
def Parser.reset : Parser where
  line := []
  payload := none
  budget := 0
  remaining := 0
  pollTicks := 0
  emptyPolls := 0

/-- 10_state R47: "`st` = IDLE, `kind` = NONE, `op` = NONE and every count 0". The two latched flags `noprobe` and `mark`
are no counts and the spec gives them no reset value: both are false (DESIGN CHOICE, log 20). -/
def Seq.reset : Seq where
  st := .idle
  kind := .none
  op := .none
  waitLeft := 0
  maxAtt := 0
  tmo := 0
  noprobe := false
  mark := false
  rawN := 0
  rawPos := 0
  rawCur := 0
  rawElapsed := 0

/-- The machine right after its first reset, built with parameters `p` (70_reset R270). The buffers list nothing: their
contents are unspecified and "zero is one choice" (70_reset R271; DESIGN CHOICE, log 7). -/
def State.resetWith (p : Params) : State where
  cfg := p
  status := Status.reset
  regs := Regs.reset p
  mem := []
  rxq := []
  parser := Parser.reset
  seq := Seq.reset
  inReset := false
  resets := 0
  inbox := []
  trace := []
  rdata := 0

/-- The machine right after reset (70_reset R270), with the uninterpreted parameters of `Config.params`. -/
def State.reset : State := State.resetWith Config.params

/-- Replace STATUS. -/
def State.setStatus (s : State) (x : Status) : State := { s with status := x }

/-- Replace the registers. -/
def State.setRegs (s : State) (x : Regs) : State := { s with regs := x }

/-- Replace the buffers. -/
def State.setMem (s : State) (x : Memory) : State := { s with mem := x }

/-- Replace the receive queue. -/
def State.setRxq (s : State) (x : List Byte) : State := { s with rxq := x }

/-- Replace the parser state. -/
def State.setParser (s : State) (x : Parser) : State := { s with parser := x }

/-- Replace the sequencer control state. -/
def State.setSeq (s : State) (x : Seq) : State := { s with seq := x }

/-- Replace the list of events not yet applied. -/
def State.setInbox (s : State) (x : List Event) : State := { s with inbox := x }

/-- Replace the channel output trace. -/
def State.setTrace (s : State) (x : List OutEvent) : State := { s with trace := x }

/-- Replace the word the host read last. -/
def State.setRdata (s : State) (x : Word) : State := { s with rdata := x }

end Sys2Proof.Machine
end

