-- ==== Sys2Proof/Machine/Flags.lean ====
section
/-! DEFINITION. STATUS and its flags (10_state R23 to R25), the codes it shows, the saturating counters (R37) and the
interrupt output (60_exceptions R246). -/

namespace Sys2Proof.Machine

/-- The RESULT codes (60_exceptions R240). -/
def Result.code : Result → BitVec 4
  | .ok => 0
  | .protocolError => 1
  | .timeoutError => 2
  | .channelError => 3
  | .deviceNotReady => 4
  | .encodingError => 5
  | .cancelled => 6
  | .badCommand => 7

/-- The OUTCOME codes (30_encoding R88). -/
def OutcomeCode.code : OutcomeCode → BitVec 4
  | .none => 0
  | .ok => 1
  | .error => 2
  | .data => 3
  | .timeout => 4
  | .invalid => 5

/-- `code(o)` of 42_at_sequencer R204. -/
def RxOutcome.outcomeCode : RxOutcome → OutcomeCode
  | .ok => .ok
  | .error => .error
  | .data => .data
  | .timeout => .timeout
  | .invalid => .invalid

/-- The `st` codes of AT_STATE (10_state R40). -/
def SeqState.code : SeqState → BitVec 4
  | .idle => 0
  | .xDrain => 1
  | .xSettle => 2
  | .xRecv => 3
  | .backoff => 4
  | .rawDrain => 5
  | .rawPace => 6
  | .rawSettle => 7
  | .rawRecv => 8

/-- The `kind` codes of AT_STATE (10_state R40). -/
def Kind.code : Kind → BitVec 4
  | .none => 0
  | .soloProbe => 1
  | .readyProbe => 2
  | .cmd => 3
  | .retryProbe => 4
  | .raw => 5

/-- The word a host reads from STATUS (10_state R23): ATTEMPTS 31:24, RES 23:18, then bits 17 down to 0. -/
def Status.word (t : Status) : Word :=
  t.attempts ++ (0 : BitVec 6) ++ BitVec.ofBool t.cherrIgn ++ BitVec.ofBool t.cancelPend
    ++ BitVec.ofBool t.lineOvf ++ BitVec.ofBool t.rxqOvf ++ BitVec.ofBool t.cmdRej ++ BitVec.ofBool t.busErr
    ++ t.outcome.code ++ t.result.code
    ++ BitVec.ofBool t.dataValid ++ BitVec.ofBool t.aliveValid ++ BitVec.ofBool t.done ++ BitVec.ofBool t.busy

/-- The word a host reads from AT_STATE (10_state R40): `kind` in 7:4, `st` in 3:0. -/
def Seq.word (q : Seq) : Word := (0 : BitVec 24) ++ q.kind.code ++ q.st.code

/-- A sticky bit is set (20_memory R62). -/
def State.setBusErr (s : State) : State := s.setStatus { s.status with busErr := true }

/-- A sticky bit is set (10_state R22; 70_reset R282). -/
def State.setCmdRej (s : State) : State := s.setStatus { s.status with cmdRej := true }

/-- A sticky bit is set (42_at_sequencer R173). -/
def State.setRxqOvf (s : State) : State := s.setStatus { s.status with rxqOvf := true }

/-- A sticky bit is set (42_at_sequencer R180). -/
def State.setLineOvf (s : State) : State := s.setStatus { s.status with lineOvf := true }

/-- A sticky bit is set (42_at_sequencer R176). -/
def State.setCherrIgn (s : State) : State := s.setStatus { s.status with cherrIgn := true }

/-- `min(x + 1, 2^32 - 1)` (10_state R37; 42_at_sequencer R179, R181). -/
def satInc (x : Word) : Word := if x = 0xFFFFFFFF then x else x + 1

/-- The level of the interrupt output (60_exceptions R246). While reset is held the rules give it no level: DONE and
IRQ_EN keep their values until the release, and irq with them (DESIGN CHOICE, log 9). -/
def irq (s : State) : Bool := s.status.done && s.regs.irqEn

end Sys2Proof.Machine
end

