-- ==== Sys2Proof/Machine/Ops.lean ====
section
/-! DEFINITION. The shared operations: the buffers' bytes (20_memory R64, R65), emitting output (42_at_sequencer R171),
accepting a command (10_state R22), completing an op (60_exceptions R241) and leaving reset (70_reset R270). There are
no exceptions to take (60_exceptions R248): `finish` is what a failure does instead. -/

namespace Sys2Proof.Machine

/-! ### Constants of 00_scope R8 and R9 and bases of 10_state R20 -/

/-- TXT_CAP (00_scope R9) -/
def txtCap : Nat := 1024
/-- CMD_CAP (00_scope R9) -/
def cmdCap : Nat := 256
/-- MARK_CAP (00_scope R9) -/
def markCap : Nat := 64
/-- LINE_MAX (00_scope R9) -/
def lineMax : Nat := 256
/-- OUT_CAP (00_scope R9) -/
def outCap : Nat := 512

/-- The base of TXT (10_state R20) -/
def txtBase : Nat := 0x1000
/-- The base of CMDBUF (10_state R20) -/
def cmdbufBase : Nat := 0x1400
/-- The base of MARKER (10_state R20) -/
def markerBase : Nat := 0x1500
/-- The base of RESP (10_state R20) -/
def respBase : Nat := 0x1600
/-- The base of OUT (10_state R20) -/
def outBase : Nat := 0x2000

/-! ### Memory -/

/-- Whether a byte offset lies in one of the five buffer windows (10_state R20). -/
def inBuffers (a : Nat) : Bool :=
  (txtBase ≤ a && a < txtBase + txtCap) || (cmdbufBase ≤ a && a < cmdbufBase + cmdCap) ||
  (markerBase ≤ a && a < markerBase + markCap) || (respBase ≤ a && a < respBase + lineMax) ||
  (outBase ≤ a && a < outBase + 4 * outCap)

/-- What a byte that the list does not name reads as: 0 (70_reset R271 leaves it open and names zero as one choice;
DESIGN CHOICE, log 7). -/
def Memory.unlisted : Byte := 0

/-- The canonical form: addresses strictly rise, every one lies in a buffer, and no entry equals what an unlisted byte
reads as. -/
abbrev Memory.wf (m : Memory) : Prop :=
  m.Pairwise (fun x y => x.1 < y.1) ∧ ∀ c ∈ m, inBuffers c.1 = true ∧ c.2 ≠ Memory.unlisted

/-- One byte of a buffer. -/
def Memory.read (m : Memory) (a : Nat) : Byte := (m.lookup a).getD Memory.unlisted

/-- The cells of `bs` laid out from address `a` on. -/
def Memory.cells (a : Nat) : List Byte → Memory
  | [] => []
  | b :: bs => (a, b) :: Memory.cells (a + 1) bs

/-- The entries that a canonical list keeps. -/
def Memory.listed (m : Memory) : Memory := m.filter (fun c => c.2 ≠ Memory.unlisted)

/-- Store `bs` at `a`, `a + 1`, …: the one operation that writes buffers. -/
def Memory.write (m : Memory) (a : Nat) (bs : List Byte) : Memory :=
  m.filter (fun c => c.1 < a) ++ Memory.listed (Memory.cells a bs) ++ m.filter (fun c => a + bs.length ≤ c.1)

/-- The bytes at `a`, …, `a + n - 1`, in address order. -/
def Memory.readBytes (m : Memory) (a n : Nat) : List Byte := (List.range n).map (fun i => m.read (a + i))

/-- `w[31:24], w[23:16], w[15:8], w[7:0]` (20_memory R64, R65). -/
def bytesOfWord (w : Word) : List Byte :=
  [w.extractLsb' 24 8, w.extractLsb' 16 8, w.extractLsb' 8 8, w.extractLsb' 0 8]

/-- The word at `a`, most significant byte first (20_memory R64). -/
def Memory.readWord (m : Memory) (a : Nat) : Word :=
  m.read a ++ m.read (a + 1) ++ m.read (a + 2) ++ m.read (a + 3)

/-- Store the word `w` at `a`; "every write replaces all four bytes of its word" (20_memory R64). -/
def Memory.writeWord (m : Memory) (a : Nat) (w : Word) : Memory := m.write a (bytesOfWord w)

/-- `wordsToBytes` (41_framer R147). -/
def wordsToBytes (ws : List Word) : List Byte := ws.flatMap bytesOfWord

/-- The buffers after the `n`-th reset release: any value at every byte (70_reset R271; free values, log 8). -/
def Memory.afterReset (n : Nat) : Memory :=
  Memory.listed (((List.range (outBase + 4 * outCap)).filter inBuffers).map (fun a => (a, Config.ramAfterReset n a)))

/-! ### Output, completion, acceptance -/

/-- `emit` of a list of output events, in order (00_scope R13; 42_at_sequencer R171). -/
def State.emit (s : State) (es : List OutEvent) : State := s.setTrace (s.trace ++ es)

/-- `finish(code)` (60_exceptions R241): the only way an op ends. -/
def finish (code : Result) (s : State) : State :=
  (s.setStatus { s.status with result := code, done := true, busy := false, cancelPend := false }).setSeq
    { s.seq with st := .idle, kind := .none, op := .none, waitLeft := 0 }

/-- A CMD write (10_state R22): refused while BUSY, with CMD_REJ; else accepted, which clears DONE (30_encoding R84) and
runs `k` in the same step. -/
def accept (k : State → State) (s : State) : State :=
  if s.status.busy then s.setCmdRej
  else k (s.setStatus { s.status with done := false })

/-- `start_op(p)` (42_at_sequencer R208). -/
def startOp (p : RunningOp) (s : State) : State :=
  ((s.setSeq { s.seq with op := p }).setStatus
      { s.status with busy := true, attempts := 0, outcome := .none, dataValid := false }).setRegs
    { s.regs with respLen := 0 }

/-- `wait(d, S)` (42_at_sequencer R193) with the continuation that the state S fixes. -/
def waitIn (d : Word) (w : SeqState) (continuation : State → State) (s : State) : State :=
  if d = 0 then continuation s else s.setSeq { s.seq with waitLeft := d, st := w }

/-- The block as the reset input is released (70_reset R270, R272): every register and hidden variable at its reset
value, the buffers at any value. The environment's side (events, trace, last read word) is not the block's and stays
(log 9). -/
def resetRelease (s : State) : State :=
  { State.resetWith s.cfg with
    mem := Memory.afterReset s.resets, resets := s.resets + 1, inbox := s.inbox, trace := s.trace, rdata := s.rdata }

end Sys2Proof.Machine
end

