-- ==== Sys2Proof/Machine/Operands.lean ====
section
/-! DEFINITION. Operand assembly (30_encoding R92): the register bits and buffer bytes each op reads. -/

namespace Sys2Proof.Machine

/-- ARG0[20:0]: the body of CW_CRC and CW_ENCODE, the address of CW_ADDR (30_encoding R92). -/
def bodyOperand (s : State) : Body := s.regs.arg0.extractLsb' 0 21

/-- ARG0[30:0]: the 31 covered bits of CW_PARITY (30_encoding R92). -/
def parityOperand (s : State) : BitVec 31 := s.regs.arg0.extractLsb' 0 31

/-- ARG1[1:0]: the function of CW_ADDR (30_encoding R92). -/
def functionOperand (s : State) : BitVec 2 := s.regs.arg1.extractLsb' 0 2

/-- FR_CFG.FUNC (10_state R31). -/
def frFunc (s : State) : BitVec 2 := s.regs.frCfg.extractLsb' 0 2

/-- FR_CFG.BITORDER (10_state R31): false is least-significant-bit first. -/
def frBitOrder (s : State) : Bool := s.regs.frCfg.getLsbD 2

/-- FR_ADDR[20:0] (10_state R30). -/
def frAddress (s : State) : Body := s.regs.frAddr.extractLsb' 0 21

/-- TXT[0..TXT_LEN) (30_encoding R92). -/
def textOperand (s : State) : List Byte := s.mem.readBytes txtBase s.regs.txtLen.toNat

/-- CMDBUF[0..AT_CMDLEN) (30_encoding R92). -/
def commandBytes (s : State) : List Byte := s.mem.readBytes cmdbufBase s.regs.atCmdlen.toNat

/-- MARKER[0..AT_MARKLEN) (30_encoding R92). -/
def markerBytes (s : State) : List Byte := s.mem.readBytes markerBase s.regs.atMarklen.toNat

/-- Bytes `i`, …, `i + n - 1` of the payload of AT_RAW: `OUT[j div 4][31 - 8*(j mod 4) : 24 - 8*(j mod 4)]`
(42_at_sequencer R210), which the buffer's big-endian layout holds at byte offset `j` of OUT (20_memory R65). -/
def payloadBytes (s : State) (i n : Nat) : List Byte := s.mem.readBytes (outBase + i) n

/-- OUT[0..n) as words. -/
def outWords (s : State) (n : Nat) : List Word := (List.range n).map (fun k => s.mem.readWord (outBase + 4 * k))

end Sys2Proof.Machine
end

