-- ==== Sys2Proof/Machine/Bus.lean ====
section
/-! DEFINITION. The host bus (20_memory) and the register map (10_state R20, R21): what an offset names, what a read
returns and what a write does. A write to CMD runs an op and is in Machine/Events.lean. -/

namespace Sys2Proof.Machine

/-- The registers of 10_state R21. -/
inductive RegName where
  | cmd
  | status
  | ctrl
  | now
  | arg0
  | arg1
  | res0
  | res1
  | frAddr
  | frCfg
  | frRepeat
  | txtLen
  | txtMax
  | outLen
  | frTextwords
  | atCmdlen
  | atTimeout
  | atRetries
  | atMarklen
  | respLen
  | noiseCnt
  | infoCnt
  | ignCnt
  | lastAlive
  | rawProgress
  | atState
deriving DecidableEq, Repr

/-- What a host access reaches (20_memory R61 to R63). -/
inductive Target where
  /-- a register of 10_state R21 -/
  | reg (r : RegName)
  /-- a RES offset of the register block (10_state R21) -/
  | res
  /-- a word of a read-write buffer: TXT (10_state R41) -/
  | openBuffer (a : Nat)
  /-- a word of a protected buffer: CMDBUF or MARKER (10_state R42) -/
  | lockedBuffer (a : Nat)
  /-- a word of a read-only window: RESP or OUT (10_state R43, R44) -/
  | readOnlyBuffer (a : Nat)
  /-- misaligned or unmapped (20_memory R62) -/
  | busError
deriving DecidableEq, Repr

/-- The offsets of 10_state R21. -/
def regMap : List (Nat × RegName) :=
  [(0x000, .cmd), (0x004, .status), (0x008, .ctrl), (0x00C, .now), (0x010, .arg0), (0x014, .arg1),
   (0x018, .res0), (0x01C, .res1), (0x020, .frAddr), (0x024, .frCfg), (0x028, .frRepeat), (0x02C, .txtLen),
   (0x030, .txtMax), (0x034, .outLen), (0x038, .frTextwords), (0x040, .atCmdlen), (0x044, .atTimeout),
   (0x048, .atRetries), (0x04C, .atMarklen), (0x050, .respLen), (0x054, .noiseCnt), (0x058, .infoCnt),
   (0x05C, .ignCnt), (0x060, .lastAlive), (0x064, .rawProgress), (0x068, .atState)]

/-- What an offset names (10_state R20, R21; 20_memory R62, R70). -/
def target (off : Offset) : Target :=
  let a := off.toNat
  if a % 4 ≠ 0 then .busError
  else if a < 0x100 then
    match regMap.lookup a with
    | some r => .reg r
    | none => .res
  else if txtBase ≤ a ∧ a < txtBase + txtCap then .openBuffer a
  else if cmdbufBase ≤ a ∧ a < cmdbufBase + cmdCap then .lockedBuffer a
  else if markerBase ≤ a ∧ a < markerBase + markCap then .lockedBuffer a
  else if respBase ≤ a ∧ a < respBase + lineMax then .readOnlyBuffer a
  else if outBase ≤ a ∧ a < outBase + 4 * outCap then .readOnlyBuffer a
  else .busError

/-- The value of a register as a host reads it: RES fields, WO registers and W1 bits read 0 (20_memory R61). -/
def readReg (s : State) : RegName → Word
  | .cmd => 0
  | .status => s.status.word
  | .ctrl => (BitVec.ofBool s.regs.irqEn).zeroExtend 32 <<< 2
  | .now => s.regs.now
  | .arg0 => s.regs.arg0
  | .arg1 => s.regs.arg1
  | .res0 => s.regs.res0
  | .res1 => s.regs.res1
  | .frAddr => s.regs.frAddr
  | .frCfg => s.regs.frCfg.zeroExtend 32
  | .frRepeat => s.regs.frRepeat
  | .txtLen => s.regs.txtLen
  | .txtMax => s.regs.txtMax
  | .outLen => s.regs.outLen
  | .frTextwords => s.regs.frTextwords
  | .atCmdlen => s.regs.atCmdlen
  | .atTimeout => s.regs.atTimeout
  | .atRetries => s.regs.atRetries.zeroExtend 32
  | .atMarklen => s.regs.atMarklen
  | .respLen => s.regs.respLen
  | .noiseCnt => s.regs.noiseCnt
  | .infoCnt => s.regs.infoCnt
  | .ignCnt => s.regs.ignCnt
  | .lastAlive => s.regs.lastAlive
  | .rawProgress => s.regs.rawProgress
  | .atState => s.seq.word

/-- What `MemRead(off, 4)` returns (20_memory R61, R62). -/
def busReadValue (s : State) (off : Offset) : Word :=
  match target off with
  | .reg r => readReg s r
  | .res => 0
  | .openBuffer a => s.mem.readWord a
  | .lockedBuffer a => s.mem.readWord a
  | .readOnlyBuffer a => s.mem.readWord a
  | .busError => 0

/-- `MemRead(off, 4)`: the word goes to the host (`rdata`, log 4); a bus error sets BUS_ERR, and nothing else changes
(20_memory R61, R62). -/
def busRead (off : Offset) (s : State) : State :=
  let t := s.setRdata (busReadValue s off)
  if target off = .busError then t.setBusErr else t

/-- A write to a protected register or buffer (10_state R21; 70_reset R282). -/
def protectedWrite (store : State → State) (s : State) : State :=
  if s.status.busy then s.setCmdRej else store s

/-- CTRL.CANCEL (10_state R26): a request is noted while BUSY. -/
def ctrlCancel (s : State) : State :=
  if s.status.busy then s.setStatus { s.status with cancelPend := true } else s

/-- CTRL.CLR (10_state R26). -/
def ctrlClear (s : State) : State :=
  (s.setStatus
    { s.status with
      done := false, busErr := false, cmdRej := false, rxqOvf := false, lineOvf := false, cherrIgn := false }).setRegs
    { s.regs with noiseCnt := 0, infoCnt := 0, ignCnt := 0 }

/-- A write to CTRL (10_state R26): both action bits act, and IRQ_EN is stored. -/
def writeCtrl (v : Word) (s : State) : State :=
  let t := if v.getLsbD 0 then ctrlCancel s else s
  let u := if v.getLsbD 1 then ctrlClear t else t
  u.setRegs { u.regs with irqEn := v.getLsbD 2 }

/-- A write to a register (20_memory R63; 10_state R21): RO registers ignore it. A CMD write stores nothing; what it
starts is in Machine/Events.lean (10_state R22). -/
def writeReg (v : Word) (s : State) : RegName → State
  | .cmd => s
  | .status => s
  | .ctrl => writeCtrl v s
  | .now => s
  | .arg0 => s.setRegs { s.regs with arg0 := v }
  | .arg1 => s.setRegs { s.regs with arg1 := v }
  | .res0 => s
  | .res1 => s
  | .frAddr => s.setRegs { s.regs with frAddr := v }
  | .frCfg => s.setRegs { s.regs with frCfg := v.extractLsb' 0 3 }
  | .frRepeat => s.setRegs { s.regs with frRepeat := v }
  | .txtLen => s.setRegs { s.regs with txtLen := v }
  | .txtMax => s.setRegs { s.regs with txtMax := v }
  | .outLen => s
  | .frTextwords => s
  | .atCmdlen => protectedWrite (fun s => s.setRegs { s.regs with atCmdlen := v }) s
  | .atTimeout => protectedWrite (fun s => s.setRegs { s.regs with atTimeout := v }) s
  | .atRetries => protectedWrite (fun s => s.setRegs { s.regs with atRetries := v.extractLsb' 0 8 }) s
  | .atMarklen => protectedWrite (fun s => s.setRegs { s.regs with atMarklen := v }) s
  | .respLen => s
  | .noiseCnt => s
  | .infoCnt => s
  | .ignCnt => s
  | .lastAlive => s
  | .rawProgress => s
  | .atState => s

/-- `MemWrite(off, 4, v)` at an offset other than CMD (20_memory R62, R63). -/
def busWrite (off : Offset) (v : Word) (s : State) : State :=
  match target off with
  | .reg r => writeReg v s r
  | .res => s
  | .openBuffer a => s.setMem (s.mem.writeWord a v)
  | .lockedBuffer a => protectedWrite (fun s => s.setMem (s.mem.writeWord a v)) s
  | .readOnlyBuffer _ => s
  | .busError => s.setBusErr

end Sys2Proof.Machine
end

