-- ==== Sys2Proof/Machine/Sequencer.lean ====
section
/-! DEFINITION. The at unit (42_at_sequencer): exchanges, attempts, the response parser, the raw payload writer and
what a Tick, a received byte, a DrainDone and a ChErr do. -/

namespace Sys2Proof.Machine

/-! ### Exchanges and attempts (42_at_sequencer section 3 and 4) -/

/-- What an exchange of the bytes `bs` sends (42_at_sequencer R190): one Flush, the bytes in order, one DrainReq. -/
def exchangeOutput (bs : List Byte) : List OutEvent := .flush :: bs.map .tx ++ [.drainReq]

/-- `start_exchange(k, bytes)` (42_at_sequencer R190, R191). -/
def startExchange (k : Kind) (bs : List Byte) (s : State) : State :=
  if s.status.cancelPend then finish .cancelled s
  else
    (((s.setSeq { s.seq with kind := k, st := .xDrain }).setRxq []).setParser
      { s.parser with line := [], payload := none }).emit (exchangeOutput bs)

/-- `begin_attempt()` (42_at_sequencer R198). -/
def beginAttempt (s : State) : State :=
  if s.status.cancelPend then finish .cancelled s
  else startExchange .cmd (commandBytes s) (s.setStatus { s.status with attempts := s.status.attempts + 1 })

/-- `contains(s, m)` (00_scope R12): there is a k with `s[k..k+len(m)) = m`. -/
def contains (s m : List Byte) : Bool := (List.range (s.length + 1)).any (fun k => (s.drop k).take m.length == m)

/-- `probe_result(o)` (42_at_sequencer R203). -/
def probeResult : RxOutcome → Result
  | .ok => .ok
  | .error => .protocolError
  | .timeout => .timeoutError
  | .data => .timeoutError
  | .invalid => .channelError

/-- The outcome register is written (42_at_sequencer R204). -/
def setOutcome (o : RxOutcome) (s : State) : State := s.setStatus { s.status with outcome := o.outcomeCode }

/-- The alive update (42_at_sequencer R205). -/
def aliveUpdate (s : State) : State :=
  (s.setRegs { s.regs with lastAlive := s.regs.now }).setStatus { s.status with aliveValid := true }

/-- The response update (42_at_sequencer R206). -/
def responseUpdate (s : State) : State :=
  match s.parser.payload with
  | some p =>
    ((s.setMem (s.mem.write respBase p)).setRegs { s.regs with respLen := BitVec.ofNat 32 p.length }).setStatus
      { s.status with dataValid := true }
  | none => (s.setRegs { s.regs with respLen := 0 }).setStatus { s.status with dataValid := false }

/-- Success of a CMD exchange, with the marker check (42_at_sequencer R199). -/
def commandSuccess (s : State) : State :=
  if s.seq.mark = false then finish .ok s
  else match s.parser.payload with
    | some p => if contains p (markerBytes s) then finish .ok s else finish .deviceNotReady s
    | none => finish .deviceNotReady s

/-- Whether attempts remain: `STATUS.ATTEMPTS < max_att` (42_at_sequencer R200 to R202). -/
def attemptsRemain (s : State) : Bool := s.status.attempts < s.seq.maxAtt

/-- The control decision at the end of a CMD exchange (42_at_sequencer R199 to R202). -/
def afterCommand (o : RxOutcome) (s : State) : State :=
  match o with
  | .ok => commandSuccess s
  | .data => commandSuccess s
  | .error =>
    if attemptsRemain s then waitIn s.cfg.errBackoffMs .backoff beginAttempt s else finish .protocolError s
  | .timeout =>
    if attemptsRemain s then startExchange .retryProbe s.cfg.probeCmd s else finish .timeoutError s
  | .invalid =>
    if attemptsRemain s then waitIn s.cfg.invBackoffMs .backoff beginAttempt s else finish .channelError s

/-- The alive update of a probe exchange that ended with outcome `o` (42_at_sequencer R194, R205). -/
def aliveIfOk (o : RxOutcome) (s : State) : State := if o = .ok then aliveUpdate s else s

/-- `end_exchange(o)` (42_at_sequencer R194): the bookkeeping of the kind, then its control decision (R195, R197,
R199 to R202). No exchange has kind NONE or RAW; nothing is done for them (DESIGN CHOICE, log 12). -/
def endExchange (o : RxOutcome) (s : State) : State :=
  match s.seq.kind with
  | .soloProbe => finish (probeResult o) (aliveIfOk o (setOutcome o s))
  | .readyProbe =>
    if o = .ok then beginAttempt (aliveIfOk o (setOutcome o s))
    else finish (probeResult o) (aliveIfOk o (setOutcome o s))
  | .cmd => afterCommand o (responseUpdate (setOutcome o s))
  | .retryProbe => beginAttempt (aliveIfOk o s)
  | .none => s
  | .raw => s

/-- The results of AT_RAW's receive (42_at_sequencer R214). -/
def rawResult : RxOutcome → Result
  | .ok => .ok
  | .data => .ok
  | .error => .protocolError
  | .timeout => .timeoutError
  | .invalid => .channelError

/-- The end of the raw receive (42_at_sequencer R214). -/
def endRaw (o : RxOutcome) (s : State) : State := finish (rawResult o) (responseUpdate (setOutcome o s))

/-- `end_recv(o)` (42_at_sequencer R182). -/
def endRecv (o : RxOutcome) (s : State) : State :=
  if s.seq.st = .rawRecv then endRaw o s else endExchange o s

/-- `end_by_timeout()` (42_at_sequencer R184). -/
def endByTimeout (s : State) : State :=
  if s.parser.payload ≠ none then endRecv .data s else endRecv .timeout s

/-! ### The response parser (42_at_sequencer section 2) -/

/-- "OK" (42_at_sequencer R181) -/
def okLine : List Byte := [0x4F, 0x4B]
/-- "ERROR" (42_at_sequencer R181) -/
def errorLine : List Byte := [0x45, 0x52, 0x52, 0x4F, 0x52]
/-- "DEBUG:" (42_at_sequencer R181) -/
def debugTag : List Byte := [0x44, 0x45, 0x42, 0x55, 0x47, 0x3A]
/-- "AT READY" (42_at_sequencer R181) -/
def atReadyTag : List Byte := [0x41, 0x54, 0x20, 0x52, 0x45, 0x41, 0x44, 0x59]

/-- INFO_CNT counts a line (42_at_sequencer R181). -/
def countInfo (s : State) : State := s.setRegs { s.regs with infoCnt := satInc s.regs.infoCnt }

/-- IGN_CNT counts a line (42_at_sequencer R181). -/
def countIgn (s : State) : State := s.setRegs { s.regs with ignCnt := satInc s.regs.ignCnt }

/-- NOISE_CNT counts a line reset (42_at_sequencer R179). -/
def countNoise (s : State) : State := s.setRegs { s.regs with noiseCnt := satInc s.regs.noiseCnt }

/-- `classify(l)` (42_at_sequencer R181): the state after the line and, if the line is terminal, the outcome that the
receive ends with. -/
def classify (l : List Byte) (s : State) : State × Option RxOutcome :=
  if l = okLine then (s, some .ok)
  else if l = errorLine then (s, some .error)
  else if contains l debugTag || contains l atReadyTag then (countInfo s, none)
  else if l.head? = some 0x2B then
    if s.parser.payload = none then (s.setParser { s.parser with payload := some l }, none)
    else (countIgn s, none)
  else (countIgn s, none)

/-- The countdown restarts (42_at_sequencer R179). -/
def restartCountdown (s : State) : State :=
  s.setParser { s.parser with remaining := s.parser.budget, pollTicks := 0, emptyPolls := 0 }

/-- The byte's part of `consume(b)` (42_at_sequencer R179), once the countdown has restarted. -/
def consumeByte (b : Byte) (s : State) : State × Option RxOutcome :=
  if b = 0x0D then (s, none)
  else if b = 0x0A then
    if s.parser.line ≠ [] then classify s.parser.line (s.setParser { s.parser with line := [] }) else (s, none)
  else if 0x20 ≤ b ∧ b ≤ 0x7E then
    if s.parser.line.length < lineMax then
      (s.setParser { s.parser with line := s.parser.line ++ [b] }, none)
    else (s.setLineOvf, none)
  else (countNoise (s.setParser { s.parser with line := [] }), none)

/-- `consume(b)` (42_at_sequencer R179): the state and, where the byte completed a terminal line, the outcome the
receive is to end with (`end_recv`, R182). -/
def consume (b : Byte) (s : State) : State × Option RxOutcome := consumeByte b (restartCountdown s)

/-- A byte given to a running receive (42_at_sequencer R173): it is consumed and may end the receive. -/
def receiveByte (b : Byte) (s : State) : State :=
  match consume b s with
  | (t, none) => t
  | (t, some o) => endRecv o t

/-- The loop of `enter_recv` (42_at_sequencer R178) over the queued bytes: the state, and whether the receive is still
active. Bytes after a terminal line stay in RXQ. -/
def drainQueue : List Byte → State → State × Bool
  | [], s => (s, true)
  | b :: q, s =>
    match consume b (s.setRxq q) with
    | (t, none) => drainQueue q t
    | (t, some o) => (endRecv o t, false)

/-- The budget T of a receive: P_PROBE_TIMEOUT_MS for the probe kinds, `tmo` for CMD and RAW (42_at_sequencer R178). -/
def recvBudget (s : State) : Word :=
  match s.seq.kind with
  | .soloProbe | .readyProbe | .retryProbe => s.cfg.probeTimeoutMs
  | .cmd | .raw | .none => s.seq.tmo

/-- The parser and `st` as a receive begins (42_at_sequencer R178). -/
def openRecv (s : State) : State :=
  (s.setParser
    { line := [], payload := none, budget := recvBudget s, remaining := recvBudget s, pollTicks := 0,
      emptyPolls := 0 }).setSeq
    { s.seq with st := if s.seq.kind = .raw then .rawRecv else .xRecv }

/-- `enter_recv(T)` (42_at_sequencer R178, R213). -/
def enterRecv (s : State) : State :=
  match drainQueue s.rxq (openRecv s) with
  | (t, true) => if t.parser.budget = 0 then endByTimeout t else t
  | (t, false) => t

/-- The counters of the parser's tick (42_at_sequencer R183). -/
def recvCountdown (s : State) : State :=
  let ticks := s.parser.pollTicks + 1
  s.setParser
    { s.parser with
      remaining := s.parser.remaining - 1
      pollTicks := if ticks = s.cfg.pollMs then 0 else ticks
      emptyPolls := if ticks = s.cfg.pollMs then s.parser.emptyPolls + 1 else s.parser.emptyPolls }

/-- The parser's tick (42_at_sequencer R183). -/
def recvTick (s : State) : State :=
  let t := recvCountdown s
  if t.parser.remaining = 0 then endByTimeout t
  else if t.cfg.maxEmptyPolls ≠ 0 ∧ t.parser.emptyPolls ≥ t.cfg.maxEmptyPolls then endByTimeout t
  else t

/-! ### The raw payload (42_at_sequencer section 6) -/

/-- The size of the next chunk: `min(P_CHUNK, raw_n - raw_pos)` (42_at_sequencer R210). -/
def chunkSize (s : State) : Nat := min s.cfg.chunk (s.seq.rawN - s.seq.rawPos).toNat

/-- `raw_chunk()` (42_at_sequencer R210). -/
def rawChunk (s : State) : State :=
  if s.status.cancelPend then finish .cancelled s
  else
    (s.emit ((payloadBytes s s.seq.rawPos.toNat (chunkSize s)).map .tx ++ [.drainReq])).setSeq
      { s.seq with rawCur := BitVec.ofNat 32 (chunkSize s), st := .rawDrain }

/-- The raw drain step (42_at_sequencer R211). -/
def rawDrained (s : State) : State :=
  let pos := s.seq.rawPos + s.seq.rawCur
  let t := (s.setSeq { s.seq with rawPos := pos }).setRegs { s.regs with rawProgress := pos }
  if pos = s.seq.rawN then waitIn t.cfg.rawSettleMs .rawSettle enterRecv t
  else waitIn t.cfg.paceMs .rawPace rawChunk t

/-- `raw_elapsed <- raw_elapsed + 1` (42_at_sequencer R212). -/
def countElapsed (s : State) : State := s.setSeq { s.seq with rawElapsed := s.seq.rawElapsed + 1 }

/-- The payload-send timeout (42_at_sequencer R212): a tick in RAW_DRAIN or RAW_PACE; `goOn` runs if the op has not
finished (R174). -/
def payloadTick (goOn : State → State) (s : State) : State :=
  let t := countElapsed s
  if t.seq.rawElapsed ≥ t.cfg.payloadTimeoutMs then finish .timeoutError t else goOn t

/-! ### The input events of the unit (42_at_sequencer R173 to R176, R220) -/

/-- One tick of a wait state (42_at_sequencer R174, R193). -/
def countdown (continuation : State → State) (s : State) : State :=
  let t := s.setSeq { s.seq with waitLeft := s.seq.waitLeft - 1 }
  if t.seq.waitLeft = 0 then continuation t else t

/-- NOW advances (10_state R27). -/
def advanceNow (s : State) : State := s.setRegs { s.regs with now := s.regs.now + 1 }

/-- What a Tick does in each `st`, after NOW has advanced (42_at_sequencer R174). Only here do waits, receives and the
payload timeout count, so without ticks none of them ends (70_reset R274, R288); X_DRAIN has no timeout (70_reset R287). -/
def tickAction (s : State) : State :=
  match s.seq.st with
  | .idle => s
  | .xDrain => s
  | .xSettle => countdown enterRecv s
  | .xRecv => recvTick s
  | .backoff => countdown beginAttempt s
  | .rawDrain => payloadTick id s
  | .rawPace => payloadTick (countdown rawChunk) s
  | .rawSettle => countdown enterRecv s
  | .rawRecv => recvTick s

/-- `Tick` (42_at_sequencer R174). -/
def onTick (s : State) : State := tickAction (advanceNow s)

/-- A byte outside a receive is queued, or dropped with RXQ_OVF (42_at_sequencer R173). -/
def queueByte (b : Byte) (s : State) : State :=
  if s.rxq.length < s.cfg.rxqCap then s.setRxq (s.rxq ++ [b]) else s.setRxqOvf

/-- `Rx(b)` (42_at_sequencer R173). -/
def onRx (b : Byte) (s : State) : State :=
  match s.seq.st with
  | .xRecv => receiveByte b s
  | .rawRecv => receiveByte b s
  | .idle | .xDrain | .xSettle | .backoff | .rawDrain | .rawPace | .rawSettle => queueByte b s

/-- `DrainDone` (42_at_sequencer R175): stale outside the two drain states. -/
def onDrainDone (s : State) : State :=
  match s.seq.st with
  | .xDrain => waitIn s.cfg.settleMs .xSettle enterRecv s
  | .rawDrain => rawDrained s
  | .idle | .xSettle | .xRecv | .backoff | .rawPace | .rawSettle | .rawRecv => s

/-- `ChErr` (42_at_sequencer R176, R215). -/
def onChErr (s : State) : State :=
  match s.seq.st with
  | .xDrain => endExchange .invalid s
  | .xSettle => endExchange .invalid s
  | .xRecv => endExchange .invalid s
  | .rawRecv => endRaw .invalid s
  | .rawDrain => finish .channelError (setOutcome .invalid s)
  | .rawPace => finish .channelError (setOutcome .invalid s)
  | .rawSettle => finish .channelError (setOutcome .invalid s)
  | .idle => s.setCherrIgn
  | .backoff => s.setCherrIgn

end Sys2Proof.Machine
end

