-- ==== Sys2Proof/Machine/AtOps.lean ====
section
/-! DEFINITION. The meanings of AT_PROBE, AT_EXEC and AT_RAW (42_at_sequencer R195, R196, R209): what the event of
their CMD write does. The later events of the op are in Machine/Sequencer.lean. -/

namespace Sys2Proof.Machine

/-- AT_PROBE (42_at_sequencer R195). -/
def execAtProbe (s : State) : Host.Outcome State Fault Refusal :=
  .next (accept (fun s =>
    let t := startOp .probe s
    startExchange .soloProbe t.cfg.probeCmd (t.setStatus { t.status with attempts := 1 })) s)

/-- The argument checks of AT_EXEC (42_at_sequencer R196). -/
def execArgsBad (flags : BitVec 4) (s : State) : Bool :=
  s.regs.atCmdlen == 0 || s.regs.atCmdlen.toNat > cmdCap || s.regs.atRetries == 0 ||
    (flags.getLsbD 1 && s.regs.atMarklen.toNat > markCap)

/-- The readiness test of AT_EXEC (42_at_sequencer R196): elapsed time modulo 2^32 (10_state R27). -/
def probeNeeded (s : State) : Bool :=
  !s.status.aliveValid || s.regs.now - s.regs.lastAlive > s.cfg.freshMs

/-- The operands AT_EXEC latches at its start (42_at_sequencer R196). -/
def latchExec (flags : BitVec 4) (s : State) : State :=
  s.setSeq { s.seq with
    maxAtt := s.regs.atRetries, tmo := s.regs.atTimeout, noprobe := flags.getLsbD 0, mark := flags.getLsbD 1 }

/-- AT_EXEC (42_at_sequencer R196). -/
def execAtExec (flags : BitVec 4) (s : State) : Host.Outcome State Fault Refusal :=
  .next (accept (fun s =>
    if execArgsBad flags s then finish .badCommand s
    else
      let t := latchExec flags (startOp .exec s)
      if !t.seq.noprobe && probeNeeded t then startExchange .readyProbe t.cfg.probeCmd t else beginAttempt t) s)

/-- AT_RAW's registers and raw progress at its start (42_at_sequencer R209). -/
def latchRaw (s : State) : State :=
  (s.setSeq { s.seq with
    tmo := s.regs.atTimeout, kind := .raw, rawN := 4 * s.regs.outLen, rawPos := 0, rawElapsed := 0 }).setRegs
    { s.regs with rawProgress := 0 }

/-- AT_RAW (42_at_sequencer R209). -/
def execAtRaw (s : State) : Host.Outcome State Fault Refusal :=
  .next (accept (fun s =>
    if s.regs.outLen = 0 then finish .badCommand s else rawChunk (latchRaw (startOp .raw s))) s)

end Sys2Proof.Machine
end

