-- ==== Sys2Proof/Machine/Codeword.lean ====
section
/-! DEFINITION. The cw unit (40_codeword): its functions and the meanings of NOP and the five cw ops. -/

namespace Sys2Proof.Machine

/-- GEN = x^10+x^9+x^8+x^6+x^5+x^3+1 (00_scope R9; 40_codeword R100). PRESUMED by the spec itself: "from general
knowledge, not in source" (log 11). -/
def gen : BitVec 11 := 0x769

/-- SYNC (00_scope R8; 30_encoding R89) -/
def syncWord : Word := 0x7CD215D8
/-- IDLE (00_scope R8; 30_encoding R89) -/
def idleWord : Word := 0x7A89C197
/-- The preamble word (30_encoding R89) -/
def preambleWord : Word := 0xAAAAAAAA

/-- One step of the division of 40_codeword R100, at bit `i`. -/
def crcStep (m : BitVec 31) (i : Nat) : BitVec 31 :=
  if m.getLsbD i then m ^^^ (gen.zeroExtend 31 <<< (i - 10)) else m

/-- `crc10` (40_codeword R100): the loop runs `i` from 30 down to 10. -/
def crc10 (b : Body) : BitVec 10 :=
  (((List.range 21).map (fun k => 30 - k)).foldl crcStep (b.zeroExtend 31 <<< 10)).extractLsb' 0 10

/-- `popcount` (00_scope R11). -/
def popcount {w : Nat} (x : BitVec w) : Nat := (List.range w).countP (fun i => x.getLsbD i)

/-- `parity31` (40_codeword R102). -/
def parity31 (x : BitVec 31) : BitVec 1 := BitVec.ofNat 1 (popcount x % 2)

/-- `cw` (40_codeword R104): body, then CRC, then parity (30_encoding R85). -/
def cw (b : Body) : Word :=
  let f : BitVec 31 := (b.zeroExtend 31 <<< 10) ||| (crc10 b).zeroExtend 31
  (f.zeroExtend 32 <<< 1) ||| (parity31 f).zeroExtend 32

/-- `addr_body` (40_codeword R106). -/
def addrBody (a : Body) (f : BitVec 2) : Body := ((a >>> 3) <<< 2) ||| f.zeroExtend 21

/-- A cw op's results and completion: RES0, RES1, then `finish(OK)` (40_codeword R108 to R112). -/
def finishWith (r0 r1 : Word) (s : State) : State :=
  finish .ok (s.setRegs { s.regs with res0 := r0, res1 := r1 })

/-- CW_CHECK's CRC mismatch `cm` (40_codeword R112). -/
def crcMismatch (w : Word) : Bool := w.extractLsb' 1 10 != crc10 (w.extractLsb' 11 21)

/-- CW_CHECK's parity mismatch `pm` (40_codeword R112). -/
def parityMismatch (w : Word) : Bool := popcount w % 2 == 1

/-- NOP (40_codeword R107). -/
def execNop (s : State) : Host.Outcome State Fault Refusal :=
  .next (accept (finish .ok) s)

/-- CW_CRC (40_codeword R108). -/
def execCwCrc (s : State) : Host.Outcome State Fault Refusal :=
  .next (accept (fun s => finishWith ((crc10 (bodyOperand s)).zeroExtend 32) 0 s) s)

/-- CW_PARITY (40_codeword R109). -/
def execCwParity (s : State) : Host.Outcome State Fault Refusal :=
  .next (accept (fun s => finishWith ((parity31 (parityOperand s)).zeroExtend 32) 0 s) s)

/-- CW_ENCODE (40_codeword R110). -/
def execCwEncode (s : State) : Host.Outcome State Fault Refusal :=
  .next (accept (fun s => finishWith (cw (bodyOperand s)) 0 s) s)

/-- CW_ADDR (40_codeword R111). -/
def execCwAddr (s : State) : Host.Outcome State Fault Refusal :=
  .next (accept (fun s =>
    let body := addrBody (bodyOperand s) (functionOperand s)
    finishWith (cw body) (body.zeroExtend 32) s) s)

/-- CW_CHECK (40_codeword R112). -/
def execCwCheck (s : State) : Host.Outcome State Fault Refusal :=
  .next (accept (fun s =>
    let w := s.regs.arg0
    let cm := crcMismatch w
    let pm := parityMismatch w
    finishWith (if !cm && !pm then 1 else 0)
      ((BitVec.ofBool cm).zeroExtend 32 <<< 1 ||| (BitVec.ofBool pm).zeroExtend 32) s) s)

end Sys2Proof.Machine
end

