-- ==== Sys2Proof/Machine/Framer.lean ====
section
/-! DEFINITION. The fr unit (41_framer): the text packer, the sync_batch_framer and the meanings of FR_TEXT and
FR_FRAME. -/

namespace Sys2Proof.Machine

/-! ### The text packer -/

/-- A message word (41_framer R131): `cw((1 << 20) | d)`. -/
def messageWord (d : DataField) : Word := cw ((1 : BitVec 1) ++ d)

/-- The seven bits a character supplies to the stream (41_framer R132, R133): bit 7 of the byte is dropped. -/
def charBits (msbFirst : Bool) (c : Byte) : List Bool :=
  (List.range 7).map (fun j => c.getLsbD (if msbFirst then 6 - j else j))

/-- The alphanumeric bit stream (41_framer R133). -/
def bitStream (msbFirst : Bool) (text : List Byte) : List Bool := text.flatMap (charBits msbFirst)

/-- A field from its bits, the first one at the most significant place (41_framer R134). -/
def fieldOfBits (bs : List Bool) : DataField :=
  bs.foldl (fun d b => (d <<< 1) ||| (BitVec.ofBool b).zeroExtend 20) 0

/-- The alphanumeric data fields (41_framer R134): `ceil(7L / 20)` of them, the last zero-padded. -/
def alphaFields (msbFirst : Bool) (text : List Byte) : List DataField :=
  let s := bitStream msbFirst text
  (List.range ((7 * text.length + 19) / 20)).map (fun k =>
    fieldOfBits ((List.range 20).map (fun j => s.getD (20 * k + j) false)))

/-- P_BCD_MAP (41_framer R135): '0' to '9' to 0 to 9, space to 0xC, the further characters the configuration defines to
their codes, every other byte to 0xF. -/
def bcdMap (p : Params) (c : Byte) : BitVec 4 :=
  if 0x30 ≤ c ∧ c ≤ 0x39 then c.extractLsb' 0 4
  else if c = 0x20 then 0xC
  else (p.bcdExtra.lookup c).getD 0xF

/-- The pad code (41_framer R137; 00_scope R8). -/
def bcdPad : BitVec 4 := 0xC

/-- A code's four bits as they stand in the field, most significant place first (41_framer R136). -/
def bcdNibble (p : Params) (n : BitVec 4) : BitVec 4 :=
  match p.bcdBitOrder with
  | .msbFirst => n
  | .lsbFirst =>
    BitVec.ofBool (n.getLsbD 0) ++ BitVec.ofBool (n.getLsbD 1) ++ BitVec.ofBool (n.getLsbD 2)
      ++ BitVec.ofBool (n.getLsbD 3)

/-- The BCD data fields (41_framer R136): `ceil(L / 5)` of them, missing codes padded. -/
def bcdFields (p : Params) (text : List Byte) : List DataField :=
  let codes := text.map (bcdMap p)
  (List.range ((text.length + 4) / 5)).map (fun k =>
    (List.range 5).foldl
      (fun d j => (d <<< 4) ||| (bcdNibble p (codes.getD (5 * k + j) bcdPad)).zeroExtend 20) 0)

/-- `data_fields` (41_framer R139). Function 2 is refused before it is asked for (R150); the list is then empty. -/
def dataFields (p : Params) (func : BitVec 2) (msbFirst : Bool) (text : List Byte) : List DataField :=
  match func.toNat with
  | 1 => bcdFields p text
  | 3 => alphaFields msbFirst text
  | _ => []

/-- The loop of `encodeText` (41_framer R140): a SYNC follows the word that fills slot 15. -/
def interleave : List DataField → Nat → List Word
  | [], _ => []
  | d :: ds, pos =>
    if pos + 1 = 16 then messageWord d :: syncWord :: interleave ds 0
    else messageWord d :: interleave ds (pos + 1)

/-- `encodeText` (41_framer R140); its count is the length of the list. -/
def encodeText (p : Params) (text : List Byte) (func : BitVec 2) (msbFirst : Bool) (pos : Nat) : List Word :=
  interleave (dataFields p func msbFirst text) pos

/-! ### The framer -/

/-- `offset` (41_framer R141). -/
def addressOffset (a : Body) : Nat := (a &&& 7).toNat * 2

/-- `encodeTransmission` (41_framer R142): the words and the word count of its message part. -/
def encodeTransmission (p : Params) (rep : Word) (a : Body) (func : BitVec 2) (text : List Byte) (msbFirst : Bool) :
    List Word × Nat :=
  let preamble := if rep = 0 then List.replicate 18 preambleWord else []
  let off := addressOffset a
  let m := encodeText p text func msbFirst (off + 1)
  let batch := [syncWord] ++ List.replicate off idleWord ++ [cw (addrBody a func)] ++ m ++ [idleWord]
  (preamble ++ batch ++ List.replicate ((17 - batch.length % 17) % 17) idleWord, m.length)

/-! ### The ops -/

/-- `fail_enc()` (41_framer R150): OUT keeps its contents. -/
def failEnc (s : State) : State :=
  finish .encodingError (s.setRegs { s.regs with outLen := 0, frTextwords := 0 })

/-- The text length checks of 41_framer R150. -/
def textTooLong (s : State) : Bool := s.regs.txtLen.toNat > txtCap || s.regs.txtLen > s.regs.txtMax

/-- An fr op's output and completion (41_framer R151, R152): OUT, OUT_LEN, FR_TEXTWORDS, then `finish(OK)`. -/
def finishFrame (ws : List Word) (textwords : Nat) (s : State) : State :=
  finish .ok ((s.setMem (s.mem.write outBase (wordsToBytes ws))).setRegs
    { s.regs with outLen := BitVec.ofNat 32 ws.length, frTextwords := BitVec.ofNat 32 textwords })

/-- FR_TEXT (41_framer R152), with the checks of R150 in their order. -/
def execFrText (s : State) : Host.Outcome State Fault Refusal :=
  .next (accept (fun s =>
    if s.regs.arg0 > 15 then finish .badCommand s
    else if frFunc s = 2 then failEnc s
    else if textTooLong s then failEnc s
    else
      let m := encodeText s.cfg (textOperand s) (frFunc s) (frBitOrder s) (s.regs.arg0.extractLsb' 0 4).toNat
      finishFrame m m.length s) s)

/-- FR_FRAME (41_framer R151), with the checks of R150 in their order. -/
def execFrFrame (s : State) : Host.Outcome State Fault Refusal :=
  .next (accept (fun s =>
    if s.regs.frAddr.extractLsb' 21 11 ≠ 0 then failEnc s
    else if frFunc s = 2 then failEnc s
    else if textTooLong s then failEnc s
    else
      let r := encodeTransmission s.cfg s.regs.frRepeat (frAddress s) (frFunc s) (textOperand s) (frBitOrder s)
      finishFrame r.1 r.2 s) s)

end Sys2Proof.Machine
end

