-- ==== Sys2Proof/Machine/Dispatch.lean ====
section
/-! DEFINITION. The meaning of each op: what a host's request for it (a write of its command word to CMD, 10_state R22)
does, the refusal while BUSY included (log 3). -/

namespace Sys2Proof.Machine

def exec (i : Instr) (s : State) : Host.Outcome State Fault Refusal :=
  match i with
  | .nop => Sys2Proof.Machine.execNop s
  | .cwCrc => Sys2Proof.Machine.execCwCrc s
  | .cwParity => Sys2Proof.Machine.execCwParity s
  | .cwEncode => Sys2Proof.Machine.execCwEncode s
  | .cwAddr => Sys2Proof.Machine.execCwAddr s
  | .cwCheck => Sys2Proof.Machine.execCwCheck s
  | .frText => Sys2Proof.Machine.execFrText s
  | .frFrame => Sys2Proof.Machine.execFrFrame s
  | .atProbe => Sys2Proof.Machine.execAtProbe s
  | .atExec flags => Sys2Proof.Machine.execAtExec flags s
  | .atRaw => Sys2Proof.Machine.execAtRaw s

end Sys2Proof.Machine
end

