-- ==== Sys2Proof/Machine/Events.lean ====
section
/-! DEFINITION. What each input event does to the block (42_at_sequencer R170 to R177; 70_reset R270). -/

namespace Sys2Proof.Machine

/-- A host write of `v` to CMD (10_state R22; 30_encoding R84): the op's meaning, or BAD_COMMAND. -/
def command (v : Word) (s : State) : Host.Outcome State Fault Refusal :=
  match Sys2Proof.decode v with
  | .ok i => exec i s
  | .error _ => .next (accept (finish .badCommand) s)

/-- An input event while reset is not asserted (42_at_sequencer R170). -/
def runEvent (e : Event) (s : State) : Host.Outcome State Fault Refusal :=
  match e with
  | .hostWrite off v => if target off = .reg .cmd then command v s else .next (busWrite off v s)
  | .hostRead off => .next (busRead off s)
  | .tick => .next (onTick s)
  | .rx b => .next (onRx b s)
  | .chErr => .next (onChErr s)
  | .drainDone => .next (onDrainDone s)
  | .resetAssert => .next { s with inReset := true }
  | .resetRelease => .next s

/-- An input event while reset is asserted: ignored, but for the release (70_reset R270). The spec does not say what the
registers and the output irq show until then: they keep their values (DESIGN CHOICE, log 9). -/
def heldEvent (e : Event) (s : State) : State :=
  match e with
  | .resetRelease => resetRelease s
  | .hostWrite _ _ | .hostRead _ | .tick | .rx _ | .chErr | .drainDone | .resetAssert => s

/-- One input event (42_at_sequencer R172). -/
def applyEvent (e : Event) (s : State) : Host.Outcome State Fault Refusal :=
  if s.inReset then .next (heldEvent e s) else runEvent e s

end Sys2Proof.Machine
end

