-- ==== Sys2Proof/Machine/Step.lean ====
section
/-! DEFINITION. One step: the next input event the environment presented is applied to quiescence (42_at_sequencer
R172). -/

namespace Sys2Proof.Machine

/-- Take the oldest event of `inbox` and apply it. With no event the block does not change: it "changes state only in
response to" an event (42_at_sequencer R170; log 2). -/
def step (s : State) : Host.Outcome State Fault Refusal :=
  match s.inbox with
  | [] => .next s
  | e :: es => applyEvent e (s.setInbox es)

/-- Present the write of a command word to CMD (offset 0x000) as the next event: that is how the block gets an op
(10_state R22; log 1). -/
def State.withFetchWord (s : State) (nbits w : Nat) : State :=
  s.setInbox (.hostWrite 0x000 (BitVec.ofNat 32 (w % 2 ^ nbits)) :: s.inbox)

end Sys2Proof.Machine
end

