-- ==== Sys2Proof/Safety.lean ====
section
/-! DEFINITION. What a good state is, and the terms the statements use: the invariants of the block, the frames of its
ops, polynomials over GF(2), the runs of events some statements follow. -/

namespace Sys2Proof.Machine

/-! ### Invariants -/

/-- The `op`, `kind` and `st` that occur together (42_at_sequencer R190 to R217, R220). -/
def legalControl : RunningOp → Kind → SeqState → Bool
  | .none, .none, .idle => true
  | .probe, .soloProbe, .xDrain | .probe, .soloProbe, .xSettle | .probe, .soloProbe, .xRecv => true
  | .exec, .readyProbe, .xDrain | .exec, .readyProbe, .xSettle | .exec, .readyProbe, .xRecv => true
  | .exec, .retryProbe, .xDrain | .exec, .retryProbe, .xSettle | .exec, .retryProbe, .xRecv => true
  | .exec, .cmd, .xDrain | .exec, .cmd, .xSettle | .exec, .cmd, .xRecv | .exec, .cmd, .backoff => true
  | .raw, .raw, .rawDrain | .raw, .raw, .rawPace | .raw, .raw, .rawSettle | .raw, .raw, .rawRecv => true
  | _, _, _ => false

/-- The states that `wait` enters (42_at_sequencer R193). -/
def isWait : SeqState → Bool
  | .xSettle | .backoff | .rawPace | .rawSettle => true
  | .idle | .xDrain | .xRecv | .rawDrain | .rawRecv => false

/-- The states of a running receive (42_at_sequencer R178). -/
def isRecv : SeqState → Bool
  | .xRecv | .rawRecv => true
  | .idle | .xDrain | .xSettle | .backoff | .rawDrain | .rawPace | .rawSettle => false

/-- Control state: legal combinations, BUSY exactly outside IDLE (42_at_sequencer R220), BUSY excludes DONE (10_state
R24), CANCEL_PEND only while BUSY (10_state R23), a running wait has ticks left (42_at_sequencer R193). -/
abbrev CtrlInv (s : State) : Prop :=
  legalControl s.seq.op s.seq.kind s.seq.st = true ∧
  (s.status.busy = true ↔ s.seq.st ≠ .idle) ∧
  (s.status.busy = true → s.status.done = false) ∧
  (s.status.cancelPend = true → s.status.busy = true) ∧
  (isWait s.seq.st = true → s.seq.waitLeft ≠ 0) ∧
  (s.seq.st = .idle → s.seq.waitLeft = 0)

/-- The attempt count (42_at_sequencer R198, R200 to R202, R207): never above `max_att`, and below it wherever another
attempt is to come. -/
abbrev AttemptInv (s : State) : Prop :=
  (s.seq.op = .exec → s.seq.maxAtt ≠ 0 ∧ s.status.attempts ≤ s.seq.maxAtt) ∧
  (s.seq.kind = .readyProbe → s.status.attempts = 0) ∧
  (s.seq.kind = .cmd → s.status.attempts ≠ 0) ∧
  (s.seq.kind = .retryProbe ∨ s.seq.st = .backoff → s.status.attempts < s.seq.maxAtt) ∧
  (s.seq.op = .probe → s.status.attempts = 1) ∧
  (s.seq.op = .raw → s.status.attempts = 0)

/-- The operands of a running op are those it was started with (20_memory R75; 70_reset R282). -/
abbrev OperandInv (s : State) : Prop :=
  (s.seq.op = .exec →
    s.regs.atCmdlen ≠ 0 ∧ s.regs.atCmdlen.toNat ≤ cmdCap ∧ s.seq.maxAtt = s.regs.atRetries ∧
    s.seq.tmo = s.regs.atTimeout ∧ (s.seq.mark = true → s.regs.atMarklen.toNat ≤ markCap)) ∧
  (s.seq.op = .raw → s.seq.tmo = s.regs.atTimeout)

/-- The parser (10_state R46; 42_at_sequencer R178 to R184): a line of at most LINE_MAX printable bytes, a payload that
is such a line and starts with '+', and a running receive whose countdown has not run out. -/
abbrev ParserInv (s : State) : Prop :=
  s.parser.line.length ≤ lineMax ∧
  (∀ b ∈ s.parser.line, 0x20 ≤ b ∧ b ≤ 0x7E) ∧
  (∀ p ∈ s.parser.payload, p.head? = some 0x2B ∧ p.length ≤ lineMax) ∧
  (isRecv s.seq.st = true →
    s.parser.remaining ≠ 0 ∧ s.parser.remaining ≤ s.parser.budget ∧ s.parser.budget = recvBudget s ∧
    s.parser.pollTicks < s.cfg.pollMs ∧
    (s.cfg.maxEmptyPolls ≠ 0 → s.parser.emptyPolls < s.cfg.maxEmptyPolls))

/-- The receive queue is never longer than its capacity (10_state R45). -/
abbrev QueueInv (s : State) : Prop := s.rxq.length ≤ s.cfg.rxqCap

/-- RESP_LEN is the length of a retained payload, and 0 without one (10_state R36). -/
abbrev RespInv (s : State) : Prop :=
  (s.status.dataValid = false → s.regs.respLen = 0) ∧
  (s.status.dataValid = true → 1 ≤ s.regs.respLen.toNat ∧ s.regs.respLen.toNat ≤ lineMax)

/-- OUT never overflows and holds the message words counted in it (41_framer R145; 10_state R34). -/
abbrev OutInv (s : State) : Prop :=
  s.regs.outLen.toNat ≤ outCap ∧ s.regs.frTextwords ≤ s.regs.outLen

/-- The raw progress (10_state R39, R47; 42_at_sequencer R209 to R213). -/
abbrev RawInv (s : State) : Prop :=
  s.seq.op = .raw →
    s.seq.rawN.toNat = 4 * s.regs.outLen.toNat ∧ s.regs.outLen ≠ 0 ∧ s.regs.rawProgress = s.seq.rawPos ∧
    (s.seq.st = .rawDrain →
      s.seq.rawCur ≠ 0 ∧ s.seq.rawPos.toNat + s.seq.rawCur.toNat ≤ s.seq.rawN.toNat) ∧
    (s.seq.st = .rawPace → s.seq.rawPos.toNat < s.seq.rawN.toNat) ∧
    (s.seq.st = .rawSettle ∨ s.seq.st = .rawRecv → s.seq.rawPos = s.seq.rawN) ∧
    (s.seq.st = .rawDrain ∨ s.seq.st = .rawPace → s.seq.rawElapsed < s.cfg.payloadTimeoutMs)

/-- All of them, with legal parameters (00_scope R10) and the buffers in their canonical form. -/
abbrev Safe (s : State) : Prop :=
  s.cfg.ok = true ∧ CtrlInv s ∧ AttemptInv s ∧ OperandInv s ∧ ParserInv s ∧ QueueInv s ∧ RespInv s ∧ OutInv s ∧
    RawInv s ∧ s.mem.wf

/-- Idle and consistent: the state in which a command is accepted (10_state R22). -/
abbrev Idle (s : State) : Prop := CtrlInv s ∧ s.status.busy = false

/-! ### Terms of the statements -/

/-- A completed atomic op: DONE and RESULT, and nothing else (60_exceptions R241; 30_encoding R84). -/
def completed (c : Result) (s : State) : State := s.setStatus { s.status with done := true, result := c }

/-- A running AT op right after `start_op` (42_at_sequencer R208), with its attempt count (R207). -/
def started (p : RunningOp) (k : Kind) (st : SeqState) (attempts : BitVec 8) (s : State) : State :=
  { s with
    status :=
      { s.status with done := false, busy := true, attempts := attempts, outcome := .none, dataValid := false }
    regs := { s.regs with respLen := 0 }
    seq := { s.seq with op := p, kind := k, st := st } }

/-- What the start of an exchange does besides `st` and `kind` (42_at_sequencer R190, R191). -/
def exchanging (bs : List Byte) (s : State) : State :=
  { s with
    rxq := []
    parser := { s.parser with line := [], payload := none }
    trace := s.trace ++ exchangeOutput bs }

/-- Every command word with OPCODE `opc` that is not among `legal` completes BAD_COMMAND and changes nothing else
(30_encoding R84, R90). -/
def OtherWordsRefused (opc : BitVec 8) (legal : List Word) (s : State) : Prop :=
  ∀ v : Word, opcodeField v = opc → v ∉ legal → command v s = .next (completed .badCommand s)

/-- `v(x) = sum over i of v[i] * x^i` over GF(2) (00_scope R14). -/
noncomputable def toPoly {w : Nat} (v : BitVec w) : Polynomial (ZMod 2) :=
  ∑ i ∈ Finset.range w, if v.getLsbD i then Polynomial.X ^ i else 0

/-- The bytes transmitted so far (42_at_sequencer R171). -/
def txBytes (es : List OutEvent) : List Byte :=
  es.filterMap (fun e => match e with
    | .tx b => some b
    | .flush => none
    | .drainReq => none)

/-- What AT_RAW has sent of its payload, as the last bytes of the transmit stream (42_at_sequencer R209 to R211): up to
the chunk in flight in RAW_DRAIN, up to `raw_pos` in RAW_PACE, all of it afterwards. -/
abbrev RawSent (s : State) : Prop :=
  (s.seq.st = .rawDrain →
    payloadBytes s 0 (s.seq.rawPos.toNat + s.seq.rawCur.toNat) <:+ txBytes s.trace) ∧
  (s.seq.st = .rawPace → payloadBytes s 0 s.seq.rawPos.toNat <:+ txBytes s.trace) ∧
  (s.seq.st = .rawSettle ∨ s.seq.st = .rawRecv → payloadBytes s 0 s.seq.rawN.toNat <:+ txBytes s.trace)

/-- Consume bytes one after another (42_at_sequencer R178's loop): the state they leave, or none once one of them completes
a terminal line. -/
def consumeAll : List Byte → State → Option State
  | [], s => some s
  | b :: bs, s =>
    match consume b s with
    | (t, none) => consumeAll bs t
    | (_, some _) => none

/-- The events of one CMD exchange that the device answers with "ERROR\r\n": the drain, the settling ticks, the bytes
(42_at_sequencer R192, R200). -/
def errorAttempt (p : Params) : List Event :=
  .drainDone :: List.replicate p.settleMs.toNat .tick ++ (errorLine ++ [0x0D, 0x0A]).map .rx

/-- `m` such exchanges, with the backoff's ticks between them (42_at_sequencer R221). -/
def errorRun (p : Params) : Nat → List Event
  | 0 => []
  | 1 => errorAttempt p
  | m + 2 => errorAttempt p ++ List.replicate p.errBackoffMs.toNat .tick ++ errorRun p (m + 1)

/-- The state a run of events leaves, where no step faults or is refused. -/
def afterEvents (n : Nat) (s : State) : Option State :=
  match Sys2Proof.core.run n s with
  | .next t => some t
  | .fault _ => none
  | .refused _ => none

end Sys2Proof.Machine
end

