-- ==== Sys2Proof/Certificates/Slice0/Obligations.lean ====
section
/-! DEFINITION. The statements for the provers. Each docstring names the rules of spec/ it formalises. -/

open Sys2Proof Sys2Proof.Machine

/-! ### Command words -/

/-- R81 to R84: decoding and encoding agree on every 32-bit word and every op. -/
def Obligations.DecodeAndEncodeAgree : Prop :=
  ∀ (v : Word) (i : Instr), decode v = .ok i ↔ (WellFormed i = true ∧ encode i = v)

/-- R94's command words, read through the table's word order. -/
def Obligations.SampleWordsDecode : Prop :=
  decode 0x00000000 = .ok .nop ∧ decode 0x00000004 = .ok .cwAddr ∧ decode 0x00000010 = .ok .frText ∧
    decode 0x00000011 = .ok .frFrame ∧ decode 0x00000020 = .ok .atProbe ∧ decode 0x00000221 = .ok (.atExec 2) ∧
    decodeTableWord 32 0x00000022 = some .atRaw ∧ decodeTableWord 32 0x00000421 = none

/-- R84, R90, R94: exactly R94's fourteen words are commands. -/
def Obligations.OnlyFourteenWordsAreCommands : Prop :=
  ∀ v : Word, (∃ i, decode v = .ok i) ↔
    v ∈ ([0x00, 0x01, 0x02, 0x03, 0x04, 0x05, 0x10, 0x11, 0x20, 0x21, 0x121, 0x221, 0x321, 0x22] : List Word)

/-- R84: what a CMD write does when it is accepted: DONE is cleared, the checks decide, and a refused word changes
nothing but DONE and RESULT. -/
def Obligations.CommandChecksDecide : Prop :=
  ∀ (s : State) (v : Word), Idle s →
    (v.extractLsb' 12 20 ≠ 0 ∨
      v.extractLsb' 0 8 ∉ ([0x00, 0x01, 0x02, 0x03, 0x04, 0x05, 0x10, 0x11, 0x20, 0x21, 0x22] : List (BitVec 8)) ∨
      (v.extractLsb' 0 8 ≠ 0x21 ∧ v.extractLsb' 8 4 ≠ 0) ∨ (v.extractLsb' 0 8 = 0x21 ∧ v.extractLsb' 10 2 ≠ 0) →
        command v s = .next (completed .badCommand s)) ∧
    (¬(v.extractLsb' 12 20 ≠ 0 ∨
      v.extractLsb' 0 8 ∉ ([0x00, 0x01, 0x02, 0x03, 0x04, 0x05, 0x10, 0x11, 0x20, 0x21, 0x22] : List (BitVec 8)) ∨
      (v.extractLsb' 0 8 ≠ 0x21 ∧ v.extractLsb' 8 4 ≠ 0) ∨ (v.extractLsb' 0 8 = 0x21 ∧ v.extractLsb' 10 2 ≠ 0)) →
        ∃ i, opcodeOf i = v.extractLsb' 0 8 ∧ flagsOf i = v.extractLsb' 8 4 ∧
          command v s = exec i { s with status := { s.status with done := false } })

/-- R22: a CMD write while BUSY is ignored and sets CMD_REJ; an accepted one clears DONE first; CMD reads 0. -/
def Obligations.CmdWriteAcceptedOnlyWhenIdle : Prop :=
  ∀ (s : State) (v : Word),
    (s.status.busy = true → command v s = .next { s with status := { s.status with cmdRej := true } }) ∧
    (s.status.busy = false → command v s = command v { s with status := { s.status with done := false } }) ∧
    busReadValue s 0x000 = 0

/-- R22, R170, R172: when the next event is a CMD write, of any word, the step is the response to that word on the state
without the event; a word that decodes, decodes to a well-formed op, and the step is that op's meaning there. -/
def Obligations.StepRunsDecodedOp : Prop :=
  ∀ (s : State) (v : Word) (rest : List Event), s.inReset = false → s.inbox = .hostWrite 0x000 v :: rest →
    step s = command v (s.setInbox rest) ∧
    ∀ i : Instr, decode v = .ok i → WellFormed i = true ∧ step s = exec i (s.setInbox rest)

/-! ### The cw unit -/

/-- R107. -/
def Obligations.NopOnlyCompletes : Prop :=
  ∀ s : State, Idle s → exec .nop s = .next (completed .ok s) ∧ OtherWordsRefused 0x00 [0x00000000] s

/-- R108: RES0 is the CRC of ARG0[20:0], RES1 is 0, and nothing else changes but DONE and RESULT. -/
def Obligations.CwCrcResult : Prop :=
  ∀ s : State, Idle s →
    exec .cwCrc s = .next (completed .ok { s with
      regs := { s.regs with res0 := (crc10 (s.regs.arg0.extractLsb' 0 21)).zeroExtend 32, res1 := 0 } }) ∧
    OtherWordsRefused 0x01 [0x00000001] s

/-- R109: RES0 is 1 exactly when ARG0[30:0] has an odd number of ones. -/
def Obligations.CwParityResult : Prop :=
  ∀ s : State, Idle s →
    exec .cwParity s = .next (completed .ok { s with
      regs := { s.regs with
        res0 := if popcount (s.regs.arg0.extractLsb' 0 31) % 2 = 1 then 1 else 0, res1 := 0 } }) ∧
    OtherWordsRefused 0x02 [0x00000002] s

/-- R110. -/
def Obligations.CwEncodeResult : Prop :=
  ∀ s : State, Idle s →
    exec .cwEncode s = .next (completed .ok { s with
      regs := { s.regs with res0 := cw (s.regs.arg0.extractLsb' 0 21), res1 := 0 } }) ∧
    OtherWordsRefused 0x03 [0x00000003] s

/-- R111, R106, R86: the body is flag 0, the 18 high address bits, the function. -/
def Obligations.CwAddrResult : Prop :=
  ∀ s : State, Idle s →
    exec .cwAddr s = .next (completed .ok { s with
      regs := { s.regs with
        res0 := cw ((0 : BitVec 1) ++ s.regs.arg0.extractLsb' 3 18 ++ s.regs.arg1.extractLsb' 0 2)
        res1 := (0 : BitVec 12) ++ s.regs.arg0.extractLsb' 3 18 ++ s.regs.arg1.extractLsb' 0 2 } }) ∧
    OtherWordsRefused 0x04 [0x00000004] s

/-- R112: RES1 is the CRC mismatch over the parity mismatch, RES0 says that there is none. -/
def Obligations.CwCheckResult : Prop :=
  ∀ s : State, Idle s →
    (∃ cm pm : Bool,
      (cm = true ↔ s.regs.arg0.extractLsb' 1 10 ≠ crc10 (s.regs.arg0.extractLsb' 11 21)) ∧
      (pm = true ↔ popcount s.regs.arg0 % 2 = 1) ∧
      exec .cwCheck s = .next (completed .ok { s with
        regs := { s.regs with
          res0 := if cm = false ∧ pm = false then 1 else 0
          res1 := (0 : BitVec 30) ++ BitVec.ofBool cm ++ BitVec.ofBool pm } })) ∧
    OtherWordsRefused 0x05 [0x00000005] s

/-- R112's last sentences, R105, R103: CW_CHECK accepts exactly the codewords, so no codeword with one bit flipped. -/
def Obligations.CwCheckAcceptsExactlyCodewords : Prop :=
  (∀ s : State, Idle s → ∃ t, exec .cwCheck s = .next t ∧
    (t.regs.res0 = 1 ↔ s.regs.arg0 = cw (s.regs.arg0.extractLsb' 11 21))) ∧
  (∀ (s : State) (b : Body) (k : Nat), Idle s → k < 32 → s.regs.arg0 = cw b ^^^ (1 <<< k) →
    ∃ t, exec .cwCheck s = .next t ∧ t.regs.res0 = 0)

/-- R100, R14: crc10 is the remainder of b(x) * x^10 by the generator over GF(2). The generator 0x769 is the one that
R100 fixes from general knowledge (log 11). -/
def Obligations.Crc10IsPolynomialRemainder : Prop :=
  ∀ b : Body, toPoly (crc10 b) = (toPoly b * Polynomial.X ^ 10) %ₘ toPoly (0x769 : BitVec 11)

/-- R101: the laws of crc10. The values rest on the generator 0x769 (log 11). -/
def Obligations.Crc10Laws : Prop :=
  (∀ a b : Body, crc10 (a ^^^ b) = crc10 a ^^^ crc10 b) ∧
  crc10 0 = 0 ∧ crc10 1 = 0x369 ∧ ((0x769 : BitVec 11) ^^^ 0x400).extractLsb' 0 10 = 0x369 ∧
  (∀ b : Body, crc10 b =
    (List.zip (List.range 21)
      ([0x369, 0x1BB, 0x376, 0x185, 0x30A, 0x17D, 0x2FA, 0x29D, 0x253, 0x3CF, 0x0F7, 0x1EE, 0x3DC, 0x0D1, 0x1A2,
        0x344, 0x1E1, 0x3C2, 0x0ED, 0x1DA, 0x3B4] : List (BitVec 10))).foldl
      (fun acc ir => if b.getLsbD ir.1 then acc ^^^ ir.2 else acc) 0) ∧
  crc10 0x1FFFFF = 0x3FF

/-- R103: the laws of parity31, and every codeword has an even number of ones. -/
def Obligations.ParityLaws : Prop :=
  parity31 0 = 0 ∧ parity31 1 = 1 ∧ parity31 0x7FFFFFFF = 1 ∧
  (∀ x y : BitVec 31, parity31 (x ^^^ y) = parity31 x ^^^ parity31 y) ∧
  (∀ b : Body, popcount (cw b) % 2 = 0)

/-- R105 (with R85's layout): a codeword reproduces its check bits, and only codewords do. -/
def Obligations.CodewordRoundTrip : Prop :=
  (∀ b : Body, (cw b).extractLsb' 11 21 = b ∧ crc10 ((cw b).extractLsb' 11 21) = (cw b).extractLsb' 1 10 ∧
    parity31 ((cw b).extractLsb' 1 31) = (cw b).extractLsb' 0 1) ∧
  (∀ w : Word, (crc10 (w.extractLsb' 11 21) = w.extractLsb' 1 10 ∧
    parity31 (w.extractLsb' 1 31) = w.extractLsb' 0 1) ↔ w = cw (w.extractLsb' 11 21))

/-! ### The fr unit -/

/-- R132, R133, R134: which bit of which character each bit of an alphanumeric data field is; and R139: these are the
fields of function 3, with the bit order asked for. -/
def Obligations.AlphaFieldBits : Prop :=
  ∀ (msbFirst : Bool) (text : List Byte),
    (alphaFields msbFirst text).length = (7 * text.length + 19) / 20 ∧
    ∀ k j, k < (7 * text.length + 19) / 20 → j < 20 →
      ((alphaFields msbFirst text).getD k 0).getLsbD (19 - j) =
        (decide (20 * k + j < 7 * text.length) &&
          (text.getD ((20 * k + j) / 7) 0).getLsbD
            (if msbFirst then 6 - (20 * k + j) % 7 else (20 * k + j) % 7)) ∧
    ∀ p : Params, dataFields p 3 msbFirst text = alphaFields msbFirst text

/-- R136, R137: which bit of which code, pad codes included, each bit of a BCD data field is; and R135: the codes of the
digits, of the space, of a byte that the map defines and of one that it does not; and R139: these are the fields of function
1, whatever the bit order asked for (R136). That the map is a list of further
characters, the first entry for a byte counting, is the model's form of P_BCD_MAP (log 6). -/
def Obligations.BcdFieldCodes : Prop :=
  ∀ p : Params,
    (∀ text : List Byte, (bcdFields p text).length = (text.length + 4) / 5 ∧
      ∀ k j i, k < (text.length + 4) / 5 → j < 5 → i < 4 →
        ((bcdFields p text).getD k 0).getLsbD (19 - 4 * j - i) =
          (if 5 * k + j < text.length then bcdMap p (text.getD (5 * k + j) 0) else 0xC).getLsbD
            (match p.bcdBitOrder with
              | .lsbFirst => i
              | .msbFirst => 3 - i)) ∧
    (∀ n : Nat, n < 10 → bcdMap p (0x30 + BitVec.ofNat 8 n) = BitVec.ofNat 4 n) ∧
    bcdMap p 0x20 = 0xC ∧
    (∀ c : Byte, c < 0x30 ∨ 0x39 < c → c ≠ 0x20 →
      (∀ n, p.bcdExtra.lookup c = some n → bcdMap p c = n) ∧
      ((∀ e ∈ p.bcdExtra, e.1 ≠ c) → bcdMap p c = 0xF)) ∧
    (∀ (msbFirst : Bool) (text : List Byte), dataFields p 1 msbFirst text = bcdFields p text)

/-- R140, R131: where encodeText puts its message words and SYNCs, and how many words it returns. -/
def Obligations.EncodeTextPlacesSync : Prop :=
  ∀ (p : Params) (text : List Byte) (func : BitVec 2) (msbFirst : Bool) (pos : Nat), pos ≤ 15 →
    (encodeText p text func msbFirst pos).length =
      (dataFields p func msbFirst text).length + (pos + (dataFields p func msbFirst text).length) / 16 ∧
    ∀ k d, (dataFields p func msbFirst text)[k]? = some d →
      (encodeText p text func msbFirst pos)[k + (pos + k) / 16]? = some (cw ((1 : BitVec 1) ++ d)) ∧
      ((pos + k + 1) % 16 = 0 →
        (encodeText p text func msbFirst pos)[k + (pos + k) / 16 + 1]? = some 0x7CD215D8)

/-- R144: length and structure of a transmission. -/
def Obligations.TransmissionStructure : Prop :=
  ∀ (p : Params) (r : Word) (a : Body) (func : BitVec 2) (text : List Byte) (msbFirst : Bool), func ≠ 2 →
    let w := (encodeTransmission p r a func text msbFirst).1
    let m := (dataFields p func msbFirst text).length
    let off := a.toNat % 8 * 2
    let s := if r = 0 then 18 else 0
    w.length = s + 17 * ((off + m + 2 + 15) / 16) ∧
    (∀ i, s + 17 * i < w.length → w[s + 17 * i]? = some 0x7CD215D8) ∧
    w[s + 1 + off]? = some (cw (addrBody a func)) ∧
    (∀ i x, s ≤ i → (i - s) % 17 ≠ 0 → w[i]? = some x →
      x = 0x7A89C197 ∨ i = s + 1 + off ∨ ∃ d ∈ dataFields p func msbFirst text, x = cw ((1 : BitVec 1) ++ d)) ∧
    w.getLast? = some 0x7A89C197 ∧
    (r ≠ 0 → w.head? = some 0x7CD215D8)

/-- R142, R143, R89, with R130, R138, R139: the whole content of a transmission: its data fields by function, its length, the preamble exactly for FR_REPEAT = 0, a SYNC at
the head of every 17-word batch, and, once these are set aside, alignment IDLEs, address word, message words, IDLEs to the
end. -/
def Obligations.TransmissionSlots : Prop :=
  ∀ (p : Params) (r : Word) (a : Body) (func : BitVec 2) (text : List Byte) (msbFirst : Bool), func ≠ 2 →
    let w := (encodeTransmission p r a func text msbFirst).1
    let ds := dataFields p func msbFirst text
    let off := a.toNat % 8 * 2
    let s := if r = 0 then 18 else 0
    (func = 0 → ds = []) ∧ (func = 1 → ds = bcdFields p text) ∧ (func = 3 → ds = alphaFields msbFirst text) ∧
    w.length = s + 17 * ((off + ds.length + 2 + 15) / 16) ∧
    w.take s = List.replicate s 0xAAAAAAAA ∧
    (∀ i, s + 17 * i < w.length → w[s + 17 * i]? = some 0x7CD215D8) ∧
    (((w.drop s).zipIdx).filter (fun c => c.2 % 17 ≠ 0)).map Prod.fst =
      List.replicate off 0x7A89C197 ++ [cw (addrBody a func)] ++ ds.map (fun d => cw ((1 : BitVec 1) ++ d)) ++
        List.replicate (16 * ((off + ds.length + 2 + 15) / 16) - (off + 1 + ds.length)) 0x7A89C197 ∧
    (encodeTransmission p r a func text msbFirst).2 = ds.length + (off + 1 + ds.length) / 16

/-- R145: with at most TXT_CAP bytes of text the longest transmission has 426 words and the longest FR_TEXT output
382, and both are reached; both fit OUT_CAP. -/
def Obligations.LongestOutputs : Prop :=
  (∀ (p : Params) (r : Word) (a : Body) (func : BitVec 2) (text : List Byte) (o : Bool) (pos : Nat),
    text.length ≤ txtCap → pos ≤ 15 →
      (encodeTransmission p r a func text o).1.length ≤ 426 ∧ (encodeText p text func o pos).length ≤ 382) ∧
  (∀ (p : Params) (a : Body) (text : List Byte) (o : Bool), text.length = txtCap → a.toNat % 8 = 7 →
    (encodeTransmission p 0 a 3 text o).1.length = 426 ∧ (encodeText p text 3 o 15).length = 382) ∧
  426 ≤ outCap ∧ 382 ≤ outCap

/-- R151 with the checks of R150: FR_FRAME's words, counts and frame, or its refusal. -/
def Obligations.FrFrameResult : Prop :=
  ∀ s : State, Idle s →
    ((s.regs.frAddr.extractLsb' 21 11 ≠ 0 ∨ s.regs.frCfg.extractLsb' 0 2 = 2 ∨ s.regs.txtLen.toNat > 1024 ∨
        s.regs.txtLen > s.regs.txtMax) →
      exec .frFrame s = .next (completed .encodingError { s with
        regs := { s.regs with outLen := 0, frTextwords := 0 } })) ∧
    (s.regs.frAddr.extractLsb' 21 11 = 0 → s.regs.frCfg.extractLsb' 0 2 ≠ 2 → s.regs.txtLen.toNat ≤ 1024 →
      s.regs.txtLen ≤ s.regs.txtMax →
      ∃ (mem : Memory) (w : List Word) (n : Nat),
        (w, n) = encodeTransmission s.cfg s.regs.frRepeat (s.regs.frAddr.extractLsb' 0 21)
          (s.regs.frCfg.extractLsb' 0 2) (s.mem.readBytes 0x1000 s.regs.txtLen.toNat) (s.regs.frCfg.getLsbD 2) ∧
        exec .frFrame s = .next (completed .ok { s with
          mem := mem
          regs := { s.regs with outLen := BitVec.ofNat 32 w.length, frTextwords := BitVec.ofNat 32 n } }) ∧
        (∀ k, k < w.length → mem.readWord (0x2000 + 4 * k) = w.getD k 0) ∧
        (∀ a, a < 0x2000 ∨ 0x2000 + 4 * w.length ≤ a → mem.read a = s.mem.read a)) ∧
    OtherWordsRefused 0x11 [0x00000011] s

/-- R152 with the checks of R150: FR_TEXT's words, count and frame, or its refusal. That OUT's words past the output keep
what they held is log 19. -/
def Obligations.FrTextResult : Prop :=
  ∀ s : State, Idle s →
    (s.regs.arg0.toNat > 15 → exec .frText s = .next (completed .badCommand s)) ∧
    (s.regs.arg0.toNat ≤ 15 →
      (s.regs.frCfg.extractLsb' 0 2 = 2 ∨ s.regs.txtLen.toNat > 1024 ∨ s.regs.txtLen > s.regs.txtMax) →
      exec .frText s = .next (completed .encodingError { s with
        regs := { s.regs with outLen := 0, frTextwords := 0 } })) ∧
    (s.regs.arg0.toNat ≤ 15 → s.regs.frCfg.extractLsb' 0 2 ≠ 2 → s.regs.txtLen.toNat ≤ 1024 →
      s.regs.txtLen ≤ s.regs.txtMax →
      ∃ (mem : Memory) (w : List Word),
        w = encodeText s.cfg (s.mem.readBytes 0x1000 s.regs.txtLen.toNat) (s.regs.frCfg.extractLsb' 0 2)
          (s.regs.frCfg.getLsbD 2) s.regs.arg0.toNat ∧
        exec .frText s = .next (completed .ok { s with
          mem := mem
          regs := { s.regs with
            outLen := BitVec.ofNat 32 w.length, frTextwords := BitVec.ofNat 32 w.length } }) ∧
        (∀ k, k < w.length → mem.readWord (0x2000 + 4 * k) = w.getD k 0) ∧
        (∀ a, a < 0x2000 ∨ 0x2000 + 4 * w.length ≤ a → mem.read a = s.mem.read a)) ∧
    OtherWordsRefused 0x10 [0x00000010] s

/-- R148: equal FR_REPEAT, FR_ADDR[20:0], FR_CFG and text give equal output, whatever else the two states hold. -/
def Obligations.FramerReadsOnlyItsInputs : Prop :=
  ∀ s₁ s₂ t₁ t₂ : State, Idle s₁ → Idle s₂ → s₁.cfg = s₂.cfg → s₁.regs.frRepeat = s₂.regs.frRepeat →
    s₁.regs.frAddr.extractLsb' 0 21 = s₂.regs.frAddr.extractLsb' 0 21 → s₁.regs.frCfg = s₂.regs.frCfg →
    textOperand s₁ = textOperand s₂ → exec .frFrame s₁ = .next t₁ → exec .frFrame s₂ = .next t₂ →
    t₁.status.result = .ok → t₂.status.result = .ok →
      t₁.regs.outLen = t₂.regs.outLen ∧ t₁.regs.frTextwords = t₂.regs.frTextwords ∧
      outWords t₁ t₁.regs.outLen.toNat = outWords t₂ t₂.regs.outLen.toNat

/-- R147, R65: the byte view of words is big-endian, and OUT's bytes are the byte view of OUT's words. -/
def Obligations.PayloadIsBigEndian : Prop :=
  (∀ ws : List Word, (wordsToBytes ws).length = 4 * ws.length) ∧
  (∀ (ws : List Word) (k j : Nat), j < 4 →
    (wordsToBytes ws)[4 * k + j]? = ws[k]?.map (fun w => w.extractLsb' (24 - 8 * j) 8)) ∧
  (∀ (s : State) (n : Nat), payloadBytes s 0 (4 * n) = wordsToBytes (outWords s n)) ∧
  wordsToBytes (List.replicate 18 preambleWord) = List.replicate 72 0xAA

/-! ### The at unit: starting an op -/

/-- R195, R190, R208: AT_PROBE starts its one exchange. -/
def Obligations.AtProbeStarts : Prop :=
  ∀ s : State, Idle s →
    exec .atProbe s = .next (exchanging s.cfg.probeCmd (started .probe .soloProbe .xDrain 1 s)) ∧
    OtherWordsRefused 0x20 [0x00000020] s

/-- R196, R198, R190, R208: AT_EXEC refuses bad arguments, probes first when liveness is not fresh, and else starts its
first attempt with the bytes of CMDBUF; it latches its operands. -/
def Obligations.AtExecStarts : Prop :=
  ∀ (s : State) (flags : BitVec 4), Idle s → flags.extractLsb' 2 2 = 0 →
    ((s.regs.atCmdlen = 0 ∨ s.regs.atCmdlen.toNat > 256 ∨ s.regs.atRetries = 0 ∨
        (flags.getLsbD 1 = true ∧ s.regs.atMarklen.toNat > 64)) →
      exec (.atExec flags) s = .next (completed .badCommand s)) ∧
    (s.regs.atCmdlen ≠ 0 → s.regs.atCmdlen.toNat ≤ 256 → s.regs.atRetries ≠ 0 →
      (flags.getLsbD 1 = true → s.regs.atMarklen.toNat ≤ 64) →
      ∀ q : Seq, q = { s.seq with
          op := .exec, st := .xDrain, maxAtt := s.regs.atRetries, tmo := s.regs.atTimeout
          noprobe := flags.getLsbD 0, mark := flags.getLsbD 1 } →
        (flags.getLsbD 0 = false ∧
            (s.status.aliveValid = false ∨ (s.regs.now - s.regs.lastAlive).toNat > s.cfg.freshMs.toNat) →
          exec (.atExec flags) s = .next { exchanging s.cfg.probeCmd (started .exec .readyProbe .xDrain 0 s) with
            seq := { q with kind := .readyProbe } }) ∧
        (flags.getLsbD 0 = true ∨
            (s.status.aliveValid = true ∧ (s.regs.now - s.regs.lastAlive).toNat ≤ s.cfg.freshMs.toNat) →
          exec (.atExec flags) s =
            .next { exchanging (s.mem.readBytes 0x1400 s.regs.atCmdlen.toNat) (started .exec .cmd .xDrain 1 s) with
              seq := { q with kind := .cmd } })) ∧
    OtherWordsRefused 0x21 [0x00000021, 0x00000121, 0x00000221, 0x00000321] s

/-- R209, R210: AT_RAW refuses an empty OUT and else sends the first chunk of OUT's bytes, without a Flush. -/
def Obligations.AtRawStarts : Prop :=
  ∀ s : State, Idle s →
    (s.regs.outLen = 0 → exec .atRaw s = .next (completed .badCommand s)) ∧
    (s.regs.outLen ≠ 0 → s.regs.outLen.toNat ≤ 512 →
      ∀ bytes : List Byte, bytes = (wordsToBytes (outWords s s.regs.outLen.toNat)).take s.cfg.chunk →
        exec .atRaw s = .next { started .raw .raw .rawDrain 0 s with
          regs := { s.regs with respLen := 0, rawProgress := 0 }
          seq := { s.seq with
            op := .raw, kind := .raw, st := .rawDrain, tmo := s.regs.atTimeout
            rawN := 4 * s.regs.outLen, rawPos := 0, rawCur := BitVec.ofNat 32 bytes.length, rawElapsed := 0 }
          trace := s.trace ++ bytes.map .tx ++ [.drainReq] }) ∧
    OtherWordsRefused 0x22 [0x00000022] s

/-! ### The at unit: receives and decisions -/

/-- R184, R183, R203: a silent receive of a probe ends with TIMEOUT on exactly the tick its countdown names; and what one
tick does to any receive: the countdown, the poll cycle, and the end by either of them. -/
def Obligations.SilentReceiveTimesOut : Prop :=
  (∀ (s : State) (rest : List Event), CtrlInv s → s.inReset = false → s.seq.kind = .soloProbe → s.seq.st = .xRecv →
    s.cfg.maxEmptyPolls = 0 → s.parser.payload = none → s.parser.remaining ≠ 0 →
    s.inbox = List.replicate s.parser.remaining.toNat .tick ++ rest →
      (∀ k, k < s.parser.remaining.toNat → ∃ u, afterEvents k s = some u ∧ u.seq.st = .xRecv ∧
        u.status.busy = true ∧ u.regs.now = s.regs.now + BitVec.ofNat 32 k) ∧
      ∃ t, afterEvents s.parser.remaining.toNat s = some t ∧ t.seq.st = .idle ∧ t.status.done = true ∧
        t.status.busy = false ∧ t.status.outcome = .timeout ∧ t.status.result = .timeoutError ∧
        t.regs.now = s.regs.now + s.parser.remaining ∧ t.trace = s.trace ∧ t.rxq = s.rxq ∧ t.inbox = rest) ∧
  (∀ (s t : State) (rest : List Event) (polls : Word), s.inReset = false → s.inbox = .tick :: rest →
    s.seq.st = .xRecv ∨ s.seq.st = .rawRecv → s.parser.remaining ≠ 0 →
    polls = (if s.parser.pollTicks + 1 = s.cfg.pollMs then s.parser.emptyPolls + 1 else s.parser.emptyPolls) →
    t = { s with
      inbox := rest
      regs := { s.regs with now := s.regs.now + 1 }
      parser := { s.parser with
        remaining := s.parser.remaining - 1
        pollTicks := if s.parser.pollTicks + 1 = s.cfg.pollMs then 0 else s.parser.pollTicks + 1
        emptyPolls := polls } } →
      (s.parser.remaining ≠ 1 → s.cfg.maxEmptyPolls = 0 ∨ polls < s.cfg.maxEmptyPolls → step s = .next t) ∧
      (s.parser.remaining = 1 ∨ (s.cfg.maxEmptyPolls ≠ 0 ∧ s.cfg.maxEmptyPolls ≤ polls) →
        ∀ o : RxOutcome, o = (if s.parser.payload = none then .timeout else .data) →
          step s = .next (if s.seq.st = .rawRecv then endRaw o t else endExchange o t)))

/-- R179, R181: what each byte does to a running receive: the countdown restarts, CR is discarded, LF completes a line
and classifies it, a printable byte extends the line up to 256 bytes, every other byte is noise. Only the lines "OK" and
"ERROR" end the receive. -/
def Obligations.ConsumeClassifiesLines : Prop :=
  ∀ (s : State) (b : Byte),
    let l := s.parser.line
    let p := { s.parser with remaining := s.parser.budget, pollTicks := 0, emptyPolls := 0 }
    (b = 0x0D → consume b s = ({ s with parser := p }, none)) ∧
    (b = 0x0A → l = [] → consume b s = ({ s with parser := p }, none)) ∧
    (b = 0x0A → l ≠ [] → consume b s =
      if l = [0x4F, 0x4B] then ({ s with parser := { p with line := [] } }, some .ok)
      else if l = [0x45, 0x52, 0x52, 0x4F, 0x52] then ({ s with parser := { p with line := [] } }, some .error)
      else if [0x44, 0x45, 0x42, 0x55, 0x47, 0x3A] <:+: l ∨ [0x41, 0x54, 0x20, 0x52, 0x45, 0x41, 0x44, 0x59] <:+: l then
        ({ s with
          parser := { p with line := [] }
          regs := { s.regs with infoCnt := if s.regs.infoCnt = 0xFFFFFFFF then 0xFFFFFFFF else s.regs.infoCnt + 1 } },
          none)
      else if l.head? = some 0x2B ∧ s.parser.payload = none then
        ({ s with parser := { p with line := [], payload := some l } }, none)
      else
        ({ s with
          parser := { p with line := [] }
          regs := { s.regs with ignCnt := if s.regs.ignCnt = 0xFFFFFFFF then 0xFFFFFFFF else s.regs.ignCnt + 1 } },
          none)) ∧
    (0x20 ≤ b ∧ b ≤ 0x7E → l.length < 256 → consume b s = ({ s with parser := { p with line := l ++ [b] } }, none)) ∧
    (0x20 ≤ b ∧ b ≤ 0x7E → 256 ≤ l.length →
      consume b s = ({ s with parser := p, status := { s.status with lineOvf := true } }, none)) ∧
    (b ≠ 0x0D → b ≠ 0x0A → ¬(0x20 ≤ b ∧ b ≤ 0x7E) → consume b s =
      ({ s with
        parser := { p with line := [] }
        regs := { s.regs with
          noiseCnt := if s.regs.noiseCnt = 0xFFFFFFFF then 0xFFFFFFFF else s.regs.noiseCnt + 1 } },
        none))

/-- R206, R214: the end of a CMD exchange or of AT_RAW's receive puts the retained payload, if any, into RESP and changes
no other byte of memory (for RESP's bytes past the payload that is log 19) and no other register; then AT_RAW's receive
ends the op with R214's result and leaves RXQ as it was (R241). -/
def Obligations.ReceiveEndFillsResp : Prop :=
  ∀ (s t : State) (o : RxOutcome), (s.seq.kind = .cmd ∧ t = endExchange o s) ∨ t = endRaw o s →
    (∀ p, s.parser.payload = some p → p.length ≤ 256 →
      t.status.dataValid = true ∧ t.regs = { s.regs with respLen := BitVec.ofNat 32 p.length } ∧
      t.mem.readBytes 0x1600 p.length = p ∧
      ∀ a, a < 0x1600 ∨ 0x1600 + p.length ≤ a → t.mem.read a = s.mem.read a) ∧
    (s.parser.payload = none →
      t.status.dataValid = false ∧ t.regs = { s.regs with respLen := 0 } ∧ ∀ a, t.mem.read a = s.mem.read a) ∧
    (t = endRaw o s → ∀ (k : OutcomeCode) (c : Result),
      (o, k, c) ∈ ([(.ok, .ok, .ok), (.data, .data, .ok), (.error, .error, .protocolError),
        (.timeout, .timeout, .timeoutError), (.invalid, .invalid, .channelError)] :
        List (RxOutcome × OutcomeCode × Result)) →
      t.status = { s.status with
        outcome := k, result := c, done := true, busy := false, cancelPend := false
        dataValid := t.status.dataValid } ∧
      t.seq.st = .idle ∧ t.trace = s.trace ∧ t.rxq = s.rxq)

/-- R173, R182, R175, R192, R211, R178: a byte outside a receive waits in RXQ or sets RXQ_OVF; in a receive it is consumed
and may end the receive. A DrainDone is ignored outside the two drain states, starts the settling of an exchange, and counts
AT_RAW's drained chunk before its pacing or settling; a wait of 0 goes on at once. A receive that begins parses the queued
bytes in order with the budget of its kind: a terminal line ends it with the bytes after it left in RXQ, and else a budget
of 0 ends it at once. -/
def Obligations.RxAndDrainDoneByState : Prop :=
  (∀ (s : State) (b : Byte) (rest : List Event), s.inReset = false →
    (s.inbox = .rx b :: rest →
      (s.seq.st ≠ .xRecv → s.seq.st ≠ .rawRecv →
        (s.rxq.length < s.cfg.rxqCap → step s = .next { s with rxq := s.rxq ++ [b], inbox := rest }) ∧
        (s.cfg.rxqCap ≤ s.rxq.length →
          step s = .next { s with status := { s.status with rxqOvf := true }, inbox := rest })) ∧
      (s.seq.st = .xRecv ∨ s.seq.st = .rawRecv → ∀ (t : State) (r : Option RxOutcome),
        consume b { s with inbox := rest } = (t, r) →
        (r = none → step s = .next t) ∧
        (∀ o, r = some o → step s = .next (if s.seq.st = .rawRecv then endRaw o t else endExchange o t)))) ∧
    (s.inbox = .drainDone :: rest →
      (s.seq.st ≠ .xDrain → s.seq.st ≠ .rawDrain → step s = .next { s with inbox := rest }) ∧
      (s.seq.st = .xDrain →
        (s.cfg.settleMs ≠ 0 → step s = .next { s with
          inbox := rest, seq := { s.seq with st := .xSettle, waitLeft := s.cfg.settleMs } }) ∧
        (s.cfg.settleMs = 0 → step s = .next (enterRecv { s with inbox := rest }))) ∧
      (s.seq.st = .rawDrain → ∀ (pos : Word) (t : State), pos = s.seq.rawPos + s.seq.rawCur →
        t = { s with
          inbox := rest, regs := { s.regs with rawProgress := pos }, seq := { s.seq with rawPos := pos } } →
        (pos ≠ s.seq.rawN → s.cfg.paceMs ≠ 0 →
          step s = .next { t with seq := { t.seq with st := .rawPace, waitLeft := s.cfg.paceMs } }) ∧
        (pos ≠ s.seq.rawN → s.cfg.paceMs = 0 → step s = .next (rawChunk t)) ∧
        (pos = s.seq.rawN → s.cfg.rawSettleMs ≠ 0 →
          step s = .next { t with seq := { t.seq with st := .rawSettle, waitLeft := s.cfg.rawSettleMs } }) ∧
        (pos = s.seq.rawN → s.cfg.rawSettleMs = 0 → step s = .next (enterRecv t))))) ∧
  (∀ (s : State) (T : Word),
    (s.seq.kind = .soloProbe ∨ s.seq.kind = .readyProbe ∨ s.seq.kind = .retryProbe) ∧ T = s.cfg.probeTimeoutMs ∨
      (s.seq.kind = .cmd ∨ s.seq.kind = .raw) ∧ T = s.seq.tmo →
    let opened := fun q : List Byte => { s with
      rxq := q
      parser :=
        { line := [], payload := none, budget := T, remaining := T, pollTicks := 0, emptyPolls := 0 }
      seq := { s.seq with st := if s.seq.kind = .raw then .rawRecv else .xRecv } }
    let ended := fun (o : RxOutcome) (t : State) => if s.seq.kind = .raw then endRaw o t else endExchange o t
    (∀ t, consumeAll s.rxq (opened []) = some t →
      enterRecv s =
        if T = 0 then ended (if t.parser.payload = none then .timeout else .data) t else t) ∧
    (∀ p b r u t o, s.rxq = p ++ b :: r → consumeAll p (opened r) = some u → consume b u = (t, some o) →
      enterRecv s = ended o t))

/-- R199 (and R194, R204): success of a command, with the marker looked for in the retained payload. Only with MARK is
AT_MARKLEN bounded (R196). The op's own result wins over a pending cancel (R247), and RXQ stays (R241). -/
def Obligations.CommandSuccessChecksMarker : Prop :=
  ∀ (s : State) (o : RxOutcome) (k : OutcomeCode), s.seq.kind = .cmd → (o = .ok ∧ k = .ok ∨ o = .data ∧ k = .data) →
    (s.seq.mark = true → s.regs.atMarklen.toNat ≤ 64) →
    let t := endExchange o s
    t.status.done = true ∧ t.status.busy = false ∧ t.status.cancelPend = false ∧ t.seq.st = .idle ∧
    t.status.outcome = k ∧ t.status.attempts = s.status.attempts ∧ t.trace = s.trace ∧ t.rxq = s.rxq ∧
    (s.seq.mark = false ∨ (∃ p, s.parser.payload = some p ∧ s.mem.readBytes 0x1500 s.regs.atMarklen.toNat <:+: p) →
      t.status.result = .ok) ∧
    (s.seq.mark = true → (∀ p, s.parser.payload = some p → ¬ s.mem.readBytes 0x1500 s.regs.atMarklen.toNat <:+: p) →
      t.status.result = .deviceNotReady)

/-- R200, R202 (and R193, R204): ERROR and INVALID back off and retry while attempts remain, and else end the op. A pending
cancel is met where a backoff of 0 goes on at once (R217, R247) and else leaves the decision alone. -/
def Obligations.CommandFailureBacksOff : Prop :=
  ∀ s : State, s.seq.kind = .cmd →
    ∀ (o : RxOutcome) (k : OutcomeCode) (d : Word) (c : Result),
      (o = .error ∧ k = .error ∧ d = s.cfg.errBackoffMs ∧ c = .protocolError) ∨
        (o = .invalid ∧ k = .invalid ∧ d = s.cfg.invBackoffMs ∧ c = .channelError) →
      let t := endExchange o s
      t.status.outcome = k ∧
      (s.status.attempts < s.seq.maxAtt → d ≠ 0 →
        t.seq = { s.seq with st := .backoff, waitLeft := d } ∧ t.trace = s.trace ∧ t.rxq = s.rxq ∧
        t.status.attempts = s.status.attempts ∧ t.status.cancelPend = s.status.cancelPend ∧ t.status.busy = s.status.busy ∧ t.status.done = s.status.done) ∧
      (s.status.attempts < s.seq.maxAtt → d = 0 → s.status.cancelPend = false →
        s.regs.atCmdlen.toNat ≤ 256 →
        t.seq = { s.seq with st := .xDrain } ∧ t.status.attempts = s.status.attempts + 1 ∧ t.rxq = [] ∧
        t.parser = { s.parser with line := [], payload := none } ∧
        t.trace = s.trace ++ exchangeOutput (s.mem.readBytes 0x1400 s.regs.atCmdlen.toNat)) ∧
      (s.status.attempts < s.seq.maxAtt → d = 0 → s.status.cancelPend = true →
        t.status.result = .cancelled ∧ t.status.done = true ∧ t.status.busy = false ∧ t.status.cancelPend = false ∧
        t.seq.st = .idle ∧ t.status.attempts = s.status.attempts ∧ t.trace = s.trace ∧ t.rxq = s.rxq) ∧
      (¬ s.status.attempts < s.seq.maxAtt →
        t.status.result = c ∧ t.status.done = true ∧ t.status.busy = false ∧ t.status.cancelPend = false ∧
        t.seq.st = .idle ∧ t.status.attempts = s.status.attempts ∧ t.trace = s.trace ∧ t.rxq = s.rxq)

/-- R201: TIMEOUT starts a retry probe at once, whose end, whatever its outcome, starts the next attempt (R198, R190) and
changes nothing else but the alive update on OK; without attempts left the op ends. A cancel pending at either boundary ends
the op CANCELLED there, after the exchange's bookkeeping (R217, R247). -/
def Obligations.CommandTimeoutProbes : Prop :=
  ∀ s : State,
    (s.seq.kind = .cmd →
      (endExchange .timeout s).status.outcome = .timeout ∧
      (s.status.attempts < s.seq.maxAtt → s.status.cancelPend = false →
        (endExchange .timeout s).seq = { s.seq with kind := .retryProbe, st := .xDrain } ∧
        (endExchange .timeout s).trace = s.trace ++ exchangeOutput s.cfg.probeCmd ∧
        (endExchange .timeout s).rxq = [] ∧
        (endExchange .timeout s).parser = { s.parser with line := [], payload := none } ∧
        (endExchange .timeout s).status.attempts = s.status.attempts) ∧
      (∀ c : Result, (s.status.attempts < s.seq.maxAtt ∧ s.status.cancelPend = true ∧ c = .cancelled) ∨
          (¬ s.status.attempts < s.seq.maxAtt ∧ c = .timeoutError) →
        (endExchange .timeout s).status.result = c ∧ (endExchange .timeout s).status.done = true ∧
        (endExchange .timeout s).status.busy = false ∧ (endExchange .timeout s).status.cancelPend = false ∧
        (endExchange .timeout s).status.attempts = s.status.attempts ∧
        (endExchange .timeout s).seq.st = .idle ∧ (endExchange .timeout s).trace = s.trace ∧
        (endExchange .timeout s).rxq = s.rxq)) ∧
    (s.seq.kind = .retryProbe → s.status.cancelPend = false → ∀ o : RxOutcome,
      endExchange o s = { s with
        status := { s.status with
          attempts := s.status.attempts + 1, aliveValid := s.status.aliveValid || decide (o = .ok) }
        regs := { s.regs with lastAlive := if o = .ok then s.regs.now else s.regs.lastAlive }
        rxq := []
        parser := { s.parser with line := [], payload := none }
        seq := { s.seq with kind := .cmd, st := .xDrain }
        trace := s.trace ++ exchangeOutput (s.mem.readBytes 0x1400 s.regs.atCmdlen.toNat) }) ∧
    (s.seq.kind = .retryProbe → s.status.cancelPend = true → ∀ o : RxOutcome,
      (endExchange o s).status = { s.status with
        result := .cancelled, done := true, busy := false, cancelPend := false
        aliveValid := s.status.aliveValid || decide (o = .ok) } ∧
      (endExchange o s).regs = { s.regs with lastAlive := if o = .ok then s.regs.now else s.regs.lastAlive } ∧
      (endExchange o s).seq.st = .idle ∧ (endExchange o s).trace = s.trace ∧ (endExchange o s).mem = s.mem ∧
      (endExchange o s).rxq = s.rxq)

/-- R203, R195, R197, with the alive update of R205: what the outcome of a stand-alone or readiness probe decides. On OK
LAST_ALIVE becomes NOW and ALIVE_VALID 1; a failed probe leaves both, and every other register, alone. An end of the op
leaves RXQ as it was (R241); a cancel pending as a readiness probe ends OK ends the op CANCELLED, after that bookkeeping
(R217, R247). -/
def Obligations.ProbeOutcomeDecides : Prop :=
  ∀ (s : State) (o : RxOutcome) (k : OutcomeCode) (c : Result),
    (o, k, c) ∈ ([(.ok, .ok, .ok), (.error, .error, .protocolError), (.timeout, .timeout, .timeoutError),
      (.data, .data, .timeoutError), (.invalid, .invalid, .channelError)] :
      List (RxOutcome × OutcomeCode × Result)) →
    (s.seq.kind = .soloProbe ∨ (s.seq.kind = .readyProbe ∧ o ≠ .ok) →
      (endExchange o s).status = { s.status with
        busy := false, done := true, cancelPend := false, result := c, outcome := k
        aliveValid := s.status.aliveValid || decide (o = .ok) } ∧
      (endExchange o s).regs = { s.regs with lastAlive := if o = .ok then s.regs.now else s.regs.lastAlive } ∧
      (endExchange o s).seq.st = .idle ∧ (endExchange o s).trace = s.trace ∧ (endExchange o s).mem = s.mem ∧
      (endExchange o s).rxq = s.rxq) ∧
    (s.seq.kind = .readyProbe → o = .ok → s.status.cancelPend = false →
      (endExchange o s).status = { s.status with
        attempts := s.status.attempts + 1, outcome := k, aliveValid := true } ∧
      (endExchange o s).regs = { s.regs with lastAlive := s.regs.now } ∧ (endExchange o s).rxq = [] ∧
      (endExchange o s).parser = { s.parser with line := [], payload := none } ∧
      (endExchange o s).seq = { s.seq with kind := .cmd, st := .xDrain } ∧
      (endExchange o s).trace = s.trace ++ exchangeOutput (s.mem.readBytes 0x1400 s.regs.atCmdlen.toNat) ∧
      (endExchange o s).mem = s.mem) ∧
    (s.seq.kind = .readyProbe → o = .ok → s.status.cancelPend = true →
      (endExchange o s).status = { s.status with
        busy := false, done := true, cancelPend := false, result := .cancelled, outcome := k, aliveValid := true } ∧
      (endExchange o s).regs = { s.regs with lastAlive := s.regs.now } ∧
      (endExchange o s).seq.st = .idle ∧ (endExchange o s).trace = s.trace ∧ (endExchange o s).mem = s.mem ∧
      (endExchange o s).rxq = s.rxq)

/-- R176, R215: a channel error ends a running exchange or AT_RAW's receive with INVALID; while AT_RAW writes it ends the
op; where no exchange can take it, only CHERR_IGN changes. -/
def Obligations.ChannelErrorOutsideReceives : Prop :=
  ∀ (s : State) (rest : List Event), s.inReset = false → s.inbox = .chErr :: rest →
    (s.seq.st = .xDrain ∨ s.seq.st = .xSettle ∨ s.seq.st = .xRecv →
      step s = .next (endExchange .invalid { s with inbox := rest })) ∧
    (s.seq.st = .rawRecv → step s = .next (endRaw .invalid { s with inbox := rest })) ∧
    (s.seq.st = .rawDrain ∨ s.seq.st = .rawPace ∨ s.seq.st = .rawSettle →
      ∃ t, step s = .next t ∧ t.status = { s.status with
          outcome := .invalid, result := .channelError, done := true, busy := false, cancelPend := false } ∧
        t.seq.st = .idle ∧ t.trace = s.trace ∧ t.regs = s.regs ∧ t.mem = s.mem ∧ t.rxq = s.rxq) ∧
    (s.seq.st = .idle ∨ s.seq.st = .backoff →
      step s = .next { s with status := { s.status with cherrIgn := true }, inbox := rest })

/-- R217: once a cancellation is pending no event makes the block emit anything; it stays pending until the op ends; and
each of the three boundaries that finds it ends the op CANCELLED. Without one, the whole effect of each boundary: an exchange
starts with one Flush, an empty RXQ and no line or payload, sends its bytes and one DrainReq (R190, R191); an attempt counts
and sends CMDBUF's bytes (R198); a raw chunk sends the next min(P_CHUNK, raw_n - raw_pos) bytes of OUT and one DrainReq
(R210). That the assertion of reset leaves a cancellation pending until the release is the model's choice (log 9). -/
def Obligations.PendingCancelSilencesOutput : Prop :=
  (∀ s t : State, CtrlInv s → s.status.cancelPend = true → step s = .next t →
    t.trace = s.trace ∧ (t.status.cancelPend = true ∨ t.seq.st = .idle)) ∧
  (∀ s t : State, s.status.cancelPend = true →
    (∃ k bs, t = startExchange k bs s) ∨ t = beginAttempt s ∨ t = rawChunk s →
      t = { s with
        status := { s.status with result := .cancelled, done := true, busy := false, cancelPend := false }
        seq := { s.seq with st := .idle, kind := .none, op := .none, waitLeft := 0 } }) ∧
  (∀ s : State, s.status.cancelPend = false →
    let sending := fun (k : Kind) (bs : List Byte) => { s with
      rxq := []
      parser := { s.parser with line := [], payload := none }
      seq := { s.seq with kind := k, st := .xDrain }
      trace := s.trace ++ [.flush] ++ bs.map .tx ++ [.drainReq] }
    (∀ k bs, startExchange k bs s = sending k bs) ∧
    beginAttempt s = { sending .cmd (s.mem.readBytes 0x1400 s.regs.atCmdlen.toNat) with
      status := { s.status with attempts := s.status.attempts + 1 } } ∧
    (s.seq.rawPos < s.seq.rawN → ∀ n, n = min s.cfg.chunk (s.seq.rawN.toNat - s.seq.rawPos.toNat) →
      rawChunk s = { s with
        seq := { s.seq with rawCur := BitVec.ofNat 32 n, st := .rawDrain }
        trace := s.trace ++ (s.mem.readBytes (0x2000 + s.seq.rawPos.toNat) n).map .tx ++ [.drainReq] }))

/-- R193, R174, R198: a backoff of d ticks ends on the d-th tick, with the next attempt; what one tick does in each wait
state, where RAW_PACE counts towards the payload timeout first (R212); and that it only advances NOW in IDLE and in X_DRAIN,
whose drain has no timeout (R287), and only NOW and raw_elapsed in RAW_DRAIN before the payload timeout. -/
def Obligations.BackoffEndsOnTime : Prop :=
  (∀ (s : State) (rest : List Event), CtrlInv s → s.inReset = false → s.seq.st = .backoff →
    s.status.cancelPend = false → s.inbox = List.replicate s.seq.waitLeft.toNat .tick ++ rest →
      (∀ k, k < s.seq.waitLeft.toNat → ∃ u, afterEvents k s = some u ∧ u.seq.st = .backoff ∧
        u.seq.waitLeft = s.seq.waitLeft - BitVec.ofNat 32 k ∧ u.trace = s.trace) ∧
      ∃ t, afterEvents s.seq.waitLeft.toNat s = some t ∧ t.seq.st = .xDrain ∧ t.seq.kind = .cmd ∧
        t.status.attempts = s.status.attempts + 1 ∧ t.regs.now = s.regs.now + s.seq.waitLeft ∧ t.rxq = [] ∧
        t.parser = { s.parser with line := [], payload := none } ∧
        t.trace = s.trace ++ exchangeOutput (s.mem.readBytes 0x1400 s.regs.atCmdlen.toNat) ∧ t.inbox = rest) ∧
  (∀ (s t : State) (rest : List Event), s.inReset = false → s.inbox = .tick :: rest → s.seq.waitLeft ≠ 0 →
    t = { s with
      inbox := rest
      regs := { s.regs with now := s.regs.now + 1 }
      seq := { s.seq with waitLeft := s.seq.waitLeft - 1 } } →
      (s.seq.st = .xSettle ∨ s.seq.st = .rawSettle →
        step s = .next (if s.seq.waitLeft = 1 then enterRecv t else t)) ∧
      (s.seq.st = .backoff → step s = .next (if s.seq.waitLeft = 1 then beginAttempt t else t)) ∧
      (s.seq.st = .rawPace → s.seq.rawElapsed < s.cfg.payloadTimeoutMs →
        (s.seq.rawElapsed + 1 = s.cfg.payloadTimeoutMs → ∃ u, step s = .next u ∧ u.seq.st = .idle ∧
          u.status = { s.status with result := .timeoutError, done := true, busy := false, cancelPend := false } ∧
          u.regs = t.regs ∧ u.mem = s.mem ∧ u.trace = s.trace ∧ u.rxq = s.rxq) ∧
        (s.seq.rawElapsed + 1 ≠ s.cfg.payloadTimeoutMs → ∀ u,
          u = { t with seq := { t.seq with rawElapsed := s.seq.rawElapsed + 1 } } →
          step s = .next (if s.seq.waitLeft = 1 then rawChunk u else u)))) ∧
  (∀ (s : State) (rest : List Event), s.inReset = false → s.inbox = .tick :: rest →
    (s.seq.st = .idle ∨ s.seq.st = .xDrain →
      step s = .next { s with inbox := rest, regs := { s.regs with now := s.regs.now + 1 } }) ∧
    (s.seq.st = .rawDrain → s.seq.rawElapsed < s.cfg.payloadTimeoutMs →
      s.seq.rawElapsed + 1 ≠ s.cfg.payloadTimeoutMs → step s = .next { s with
        inbox := rest
        regs := { s.regs with now := s.regs.now + 1 }
        seq := { s.seq with rawElapsed := s.seq.rawElapsed + 1 } }))

/-- R212: without a DrainDone the payload timeout ends AT_RAW on the tick that makes raw_elapsed reach it. -/
def Obligations.PayloadTimeoutEndsRaw : Prop :=
  ∀ (s : State) (rest : List Event) (n : Nat), CtrlInv s → s.inReset = false → s.seq.st = .rawDrain →
    s.seq.rawElapsed < s.cfg.payloadTimeoutMs → n = (s.cfg.payloadTimeoutMs - s.seq.rawElapsed).toNat →
    s.inbox = List.replicate n .tick ++ rest →
      (∀ k, k < n → ∃ u, afterEvents k s = some u ∧ u.seq.st = .rawDrain) ∧
      ∃ t, afterEvents n s = some t ∧ t.seq.st = .idle ∧ t.status.result = .timeoutError ∧ t.status.done = true ∧
        t.status.outcome = s.status.outcome ∧ t.regs.rawProgress = s.regs.rawProgress ∧ t.trace = s.trace ∧
        t.rxq = s.rxq

/-- R209 to R213, R65: what AT_RAW has sent is always the prefix of OUT's bytes that its progress names. -/
def Obligations.RawSentKept : Prop :=
  ∀ s t : State, Safe s → RawSent s → step s = .next t → RawSent t

/-- R200, R221: an ERROR on every attempt makes exactly the attempts left, with backoffs between them, and ends in
PROTOCOL_ERROR with ATTEMPTS = max_att. -/
def Obligations.ErrorOnEveryAttempt : Prop :=
  ∀ (s : State) (m : Nat) (rest : List Event), CtrlInv s → s.inReset = false → s.seq.kind = .cmd →
    s.seq.st = .xDrain → s.status.cancelPend = false → s.rxq = [] → s.seq.tmo ≠ 0 → 1 ≤ m →
    s.status.attempts.toNat + (m - 1) = s.seq.maxAtt.toNat → s.inbox = errorRun s.cfg m ++ rest →
      ∃ t, afterEvents (errorRun s.cfg m).length s = some t ∧ t.inbox = rest ∧ t.status.done = true ∧
        t.status.busy = false ∧ t.status.result = .protocolError ∧ t.status.outcome = .error ∧
        t.status.attempts = s.seq.maxAtt ∧
        t.trace.count .flush = s.trace.count .flush + (m - 1) ∧
        t.regs.now = s.regs.now +
          BitVec.ofNat 32 (m * s.cfg.settleMs.toNat + (m - 1) * s.cfg.errBackoffMs.toNat)

/-- R185: OUTCOME becomes INVALID only in a step that takes a ChErr. -/
def Obligations.InvalidOnlyFromChErr : Prop :=
  ∀ s t : State, step s = .next t → s.status.outcome ≠ .invalid → t.status.outcome = .invalid →
    s.inReset = false ∧ s.inbox.head? = some .chErr

/-! ### Invariants of every step -/

/-- R220, R24, R23, R193: the control state stays consistent. -/
def Obligations.ControlInvKept : Prop :=
  ∀ s t : State, CtrlInv s → step s = .next t → CtrlInv t

/-- The whole invariant is kept by every step: control, attempts, operands, parser, queue, RESP, OUT, raw progress and
the canonical form of the buffers. -/
def Obligations.SafeKept : Prop :=
  ∀ s t : State, Safe s → step s = .next t → Safe t

/-- The state after reset has the invariant. That its buffers list nothing is the model's choice (log 7), as are the reset
values of `noprobe` and `mark` (log 20), on which nothing here rests. -/
def Obligations.ResetIsSafe : Prop := Safe State.reset

/-- R270: the reset values, as the host reads them and in the hidden state. Those of `noprobe` and `mark`, which the spec
does not give, are the model's choice (log 20). -/
def Obligations.ResetValues : Prop :=
  (∀ off : Offset, off.toNat < 0x100 → off.toNat % 4 = 0 →
    busReadValue State.reset off =
      if off = 0x030 then 1024
      else if off = 0x044 then State.reset.cfg.defaultTimeoutMs
      else if off = 0x048 then State.reset.cfg.defaultRetries.zeroExtend 32
      else 0) ∧
  State.reset.rxq = [] ∧
  State.reset.parser =
    { line := [], payload := none, budget := 0, remaining := 0, pollTicks := 0, emptyPolls := 0 } ∧
  State.reset.seq =
    { st := .idle, kind := .none, op := .none, waitLeft := 0, maxAtt := 0, tmo := 0, noprobe := false, mark := false
      rawN := 0, rawPos := 0, rawCur := 0, rawElapsed := 0 } ∧
  irq State.reset = false

/-- R270, R272, log 8 and log 9: the assertion of reset takes effect as an event of its own and changes nothing else, a
release without one only takes the event; while reset is asserted every event is ignored; its release leaves every register and
hidden variable at its reset value (`noprobe` and `mark` by log 20) and emits nothing. -/
def Obligations.ResetInputForgets : Prop :=
  (∀ (s : State) (rest : List Event), s.inReset = false →
    (s.inbox = .resetAssert :: rest → step s = .next { s with inReset := true, inbox := rest }) ∧
    (s.inbox = .resetRelease :: rest → step s = .next { s with inbox := rest })) ∧
  ∀ (s : State) (e : Event) (rest : List Event), s.inReset = true → s.inbox = e :: rest →
    (e ≠ .resetRelease → step s = .next { s with inbox := rest }) ∧
    (e = .resetRelease → ∃ t, step s = .next t ∧ t.inReset = false ∧
      t.status = State.reset.status ∧ t.regs = Regs.reset s.cfg ∧ t.rxq = [] ∧ t.parser = State.reset.parser ∧
      t.seq = State.reset.seq ∧ t.cfg = s.cfg ∧ t.trace = s.trace ∧ t.mem.wf ∧
      ∀ a, t.mem.read a = if inBuffers a = true then Config.ramAfterReset s.resets a else Memory.unlisted)

/-! ### Rules about the whole machine -/

/-- R27, R174: NOW counts the ticks, modulo 2^32, and nothing else changes it but reset. That the assertion of reset
leaves it until the release is the model's choice (log 9). And R274, R288: without ticks no wait or timeout ends: no host
event, byte or DrainDone moves a wait, and none but a byte moves a receive's countdown, a DrainDone RAW_DRAIN's. -/
def Obligations.NowCountsTicks : Prop :=
  (∀ s t : State, step s = .next t →
    t.regs.now =
      if s.inReset = false ∧ s.inbox.head? = some .tick then s.regs.now + 1
      else if s.inReset = true ∧ s.inbox.head? = some .resetRelease then 0
      else s.regs.now) ∧
  (∀ (s t : State) (e : Event) (rest : List Event), CtrlInv s → s.inReset = false → s.inbox = e :: rest →
    step s = .next t →
    e = .drainDone ∨ (∃ b, e = .rx b) ∨ (∃ off v, e = .hostWrite off v) ∨ (∃ off, e = .hostRead off) →
      (isWait s.seq.st = true → t.seq = s.seq) ∧
      (isRecv s.seq.st = true → (∀ b, e ≠ .rx b) → t.seq = s.seq ∧ t.parser = s.parser) ∧
      (s.seq.st = .xDrain ∨ s.seq.st = .rawDrain → e ≠ .drainDone → t.seq = s.seq))

/-- R25, R37: the sticky bits stay set and the counters never fall, but for CTRL.CLR and the release of reset. That the
assertion of reset leaves them until the release is the model's choice (log 9). -/
def Obligations.StickyBitsAndCountersStay : Prop :=
  ∀ s t : State, step s = .next t → ¬(s.inReset = true ∧ s.inbox.head? = some .resetRelease) →
    (∀ v, s.inbox.head? = some (.hostWrite 0x008 v) → v.getLsbD 1 = false) →
      (s.status.busErr = true → t.status.busErr = true) ∧ (s.status.cmdRej = true → t.status.cmdRej = true) ∧
      (s.status.rxqOvf = true → t.status.rxqOvf = true) ∧ (s.status.lineOvf = true → t.status.lineOvf = true) ∧
      (s.status.cherrIgn = true → t.status.cherrIgn = true) ∧
      s.regs.noiseCnt ≤ t.regs.noiseCnt ∧ s.regs.infoCnt ≤ t.regs.infoCnt ∧ s.regs.ignCnt ≤ t.regs.ignCnt

/-- R205, R23, R38: LAST_ALIVE changes and ALIVE_VALID is set only as a probe exchange ends, with the NOW of that
moment; only the release of reset clears ALIVE_VALID. That the assertion of reset leaves both until the release is the
model's choice (log 9). -/
def Obligations.LivenessOnlyFromProbes : Prop :=
  ∀ s t : State, step s = .next t → ¬(s.inReset = true ∧ s.inbox.head? = some .resetRelease) →
    (s.status.aliveValid = true → t.status.aliveValid = true) ∧
    (t.regs.lastAlive ≠ s.regs.lastAlive ∨ t.status.aliveValid ≠ s.status.aliveValid →
      t.regs.lastAlive = t.regs.now ∧
      (s.seq.kind = .soloProbe ∨ s.seq.kind = .readyProbe ∨ s.seq.kind = .retryProbe))

/-- R282, R177, R75: while an op runs, no event but the release of reset changes its operands or OUT. That the assertion
of reset leaves them until the release is the model's choice (log 9). -/
def Obligations.BusyProtectsOperands : Prop :=
  ∀ s t : State, s.status.busy = true → (∀ p ∈ s.parser.payload, p.length ≤ 256) → step s = .next t →
    ¬(s.inReset = true ∧ s.inbox.head? = some .resetRelease) →
      t.regs.atCmdlen = s.regs.atCmdlen ∧ t.regs.atTimeout = s.regs.atTimeout ∧
      t.regs.atRetries = s.regs.atRetries ∧ t.regs.atMarklen = s.regs.atMarklen ∧ t.regs.outLen = s.regs.outLen ∧
      (∀ a, 0x1400 ≤ a → a < 0x1500 → t.mem.read a = s.mem.read a) ∧
      (∀ a, 0x1500 ≤ a → a < 0x1540 → t.mem.read a = s.mem.read a) ∧
      (∀ a, 0x2000 ≤ a → a < 0x2800 → t.mem.read a = s.mem.read a)

/-- R223: the cw and fr units never emit; the at unit never touches OUT, TXT, the FR registers or the cw registers. -/
def Obligations.UnitsStayApart : Prop :=
  (∀ (s t : State) (i : Instr), i ∈ ([.nop, .cwCrc, .cwParity, .cwEncode, .cwAddr, .cwCheck, .frText, .frFrame] :
      List Instr) → exec i s = .next t → t.trace = s.trace) ∧
  (∀ s t : State, s.inReset = false → (∀ p ∈ s.parser.payload, p.length ≤ 256) → s.parser.line.length ≤ 256 →
    (∃ e ∈ ([.tick, .chErr, .drainDone] : List Event), applyEvent e s = .next t) ∨
      (∃ b, applyEvent (.rx b) s = .next t) ∨ exec .atProbe s = .next t ∨ (∃ fl, exec (.atExec fl) s = .next t) ∨
      exec .atRaw s = .next t →
    (∀ a, 0x1000 ≤ a → a < 0x1400 → t.mem.read a = s.mem.read a) ∧
    (∀ a, 0x2000 ≤ a → a < 0x2800 → t.mem.read a = s.mem.read a) ∧
    t.regs = { t.regs with
      arg0 := s.regs.arg0, arg1 := s.regs.arg1, res0 := s.regs.res0, res1 := s.regs.res1
      frAddr := s.regs.frAddr, frCfg := s.regs.frCfg, frRepeat := s.regs.frRepeat, txtLen := s.regs.txtLen
      txtMax := s.regs.txtMax, outLen := s.regs.outLen, frTextwords := s.regs.frTextwords })

/-- R172, R66: each step takes exactly the oldest event, only adds to the outputs already emitted, and never changes
the parameters. -/
def Obligations.EventsTakenInOrder : Prop :=
  ∀ s : State, ∃ t, step s = .next t ∧ t.inbox = s.inbox.tail ∧ s.trace <+: t.trace ∧ t.cfg = s.cfg

/-! ### The host bus -/

/-- R61, R62, R23, R40, with the codes of R240, R88 and R40 as numbers: what a read returns; it changes nothing but the word the host gets, and sets BUS_ERR exactly for
a misaligned or unmapped offset, where it returns 0. -/
def Obligations.HostReadsChangeNothing : Prop :=
  ∀ (s : State) (off : Offset) (rest : List Event), s.inReset = false → s.inbox = .hostRead off :: rest →
    let a := off.toNat
    let mapped := a < 0x100 ∨ (0x1000 ≤ a ∧ a < 0x1540) ∨ (0x1600 ≤ a ∧ a < 0x1700) ∨ (0x2000 ≤ a ∧ a < 0x2800)
    (a % 4 = 0 → mapped →
      step s = .next { s with rdata := busReadValue s off, inbox := rest } ∧
      (0x1000 ≤ a → busReadValue s off = s.mem.read a ++ s.mem.read (a + 1) ++ s.mem.read (a + 2) ++
        s.mem.read (a + 3)) ∧
      (a < 0x100 → a ≠ 0x004 → busReadValue s off =
        ((([(0x008, if s.regs.irqEn then 4 else 0), (0x00C, s.regs.now), (0x010, s.regs.arg0), (0x014, s.regs.arg1),
          (0x018, s.regs.res0), (0x01C, s.regs.res1), (0x020, s.regs.frAddr), (0x024, s.regs.frCfg.zeroExtend 32),
          (0x028, s.regs.frRepeat), (0x02C, s.regs.txtLen), (0x030, s.regs.txtMax), (0x034, s.regs.outLen),
          (0x038, s.regs.frTextwords), (0x040, s.regs.atCmdlen), (0x044, s.regs.atTimeout),
          (0x048, s.regs.atRetries.zeroExtend 32), (0x04C, s.regs.atMarklen), (0x050, s.regs.respLen),
          (0x054, s.regs.noiseCnt), (0x058, s.regs.infoCnt), (0x05C, s.regs.ignCnt), (0x060, s.regs.lastAlive),
          (0x064, s.regs.rawProgress),
          (0x068,
            (match s.seq.kind with
              | .none => 0x00 | .soloProbe => 0x10 | .readyProbe => 0x20 | .cmd => 0x30 | .retryProbe => 0x40
              | .raw => 0x50) +
            (match s.seq.st with
              | .idle => 0 | .xDrain => 1 | .xSettle => 2 | .xRecv => 3 | .backoff => 4 | .rawDrain => 5
              | .rawPace => 6 | .rawSettle => 7 | .rawRecv => 8))] :
          List (Nat × Word)).lookup a).getD 0)) ∧
      (a = 0x004 →
        let w := busReadValue s off
        w.getLsbD 0 = s.status.busy ∧ w.getLsbD 1 = s.status.done ∧ w.getLsbD 2 = s.status.aliveValid ∧
        w.getLsbD 3 = s.status.dataValid ∧
        w.extractLsb' 4 4 = (match s.status.result with
          | .ok => 0 | .protocolError => 1 | .timeoutError => 2 | .channelError => 3 | .deviceNotReady => 4
          | .encodingError => 5 | .cancelled => 6 | .badCommand => 7) ∧
        w.extractLsb' 8 4 = (match s.status.outcome with
          | .none => 0 | .ok => 1 | .error => 2 | .data => 3 | .timeout => 4 | .invalid => 5) ∧
        w.getLsbD 12 = s.status.busErr ∧ w.getLsbD 13 = s.status.cmdRej ∧
        w.getLsbD 14 = s.status.rxqOvf ∧ w.getLsbD 15 = s.status.lineOvf ∧ w.getLsbD 16 = s.status.cancelPend ∧
        w.getLsbD 17 = s.status.cherrIgn ∧ w.extractLsb' 18 6 = 0 ∧ w.extractLsb' 24 8 = s.status.attempts)) ∧
    (¬(a % 4 = 0 ∧ mapped) →
      step s = .next { s with rdata := 0, inbox := rest, status := { s.status with busErr := true } })

/-- R63, R21, R282: what a write to the register block does at every offset but CMD and CTRL: each read-write register
stores its bits, a protected one refuses while an op runs, read-only registers and RES offsets ignore the write. -/
def Obligations.RegisterWritesFollowTheMap : Prop :=
  ∀ (s : State) (off : Offset) (v : Word) (rest : List Event), s.inReset = false →
    s.inbox = .hostWrite off v :: rest → off.toNat < 0x100 → off ≠ 0x000 → off ≠ 0x008 →
    (off.toNat % 4 = 0 → step s = .next { s with
      inbox := rest
      regs := { s.regs with
        arg0 := if off = 0x010 then v else s.regs.arg0
        arg1 := if off = 0x014 then v else s.regs.arg1
        frAddr := if off = 0x020 then v else s.regs.frAddr
        frCfg := if off = 0x024 then v.extractLsb' 0 3 else s.regs.frCfg
        frRepeat := if off = 0x028 then v else s.regs.frRepeat
        txtLen := if off = 0x02C then v else s.regs.txtLen
        txtMax := if off = 0x030 then v else s.regs.txtMax
        atCmdlen := if off = 0x040 ∧ s.status.busy = false then v else s.regs.atCmdlen
        atTimeout := if off = 0x044 ∧ s.status.busy = false then v else s.regs.atTimeout
        atRetries := if off = 0x048 ∧ s.status.busy = false then v.extractLsb' 0 8 else s.regs.atRetries
        atMarklen := if off = 0x04C ∧ s.status.busy = false then v else s.regs.atMarklen }
      status := { s.status with
        cmdRej := s.status.cmdRej ||
          (s.status.busy && decide (off ∈ ([0x040, 0x044, 0x048, 0x04C] : List Offset))) } }) ∧
    (off.toNat % 4 ≠ 0 → step s = .next { s with inbox := rest, status := { s.status with busErr := true } })

/-- R64, R63, R62, R282: a write to a buffer stores the word big-endian and changes nothing else, is refused with
CMD_REJ where the buffer is protected and an op runs, is ignored in a read-only window, and is a bus error at a
misaligned or unmapped offset. -/
def Obligations.BufferWritesFollowTheMap : Prop :=
  ∀ (s : State) (off : Offset) (v : Word) (rest : List Event), s.inReset = false →
    s.inbox = .hostWrite off v :: rest → 0x100 ≤ off.toNat →
    let a := off.toNat
    (a % 4 = 0 → (0x1000 ≤ a ∧ a < 0x1400) ∨ (0x1400 ≤ a ∧ a < 0x1540 ∧ s.status.busy = false) →
      ∃ t, step s = .next t ∧ t = { s with mem := t.mem, inbox := rest } ∧ busReadValue t off = v ∧
        t.mem.read a = v.extractLsb' 24 8 ∧ t.mem.read (a + 1) = v.extractLsb' 16 8 ∧
        t.mem.read (a + 2) = v.extractLsb' 8 8 ∧ t.mem.read (a + 3) = v.extractLsb' 0 8 ∧
        ∀ b, b < a ∨ a + 4 ≤ b → t.mem.read b = s.mem.read b) ∧
    (a % 4 = 0 → 0x1400 ≤ a ∧ a < 0x1540 → s.status.busy = true →
      step s = .next { s with status := { s.status with cmdRej := true }, inbox := rest }) ∧
    (a % 4 = 0 → (0x1600 ≤ a ∧ a < 0x1700) ∨ (0x2000 ≤ a ∧ a < 0x2800) →
      step s = .next { s with inbox := rest }) ∧
    (¬(a % 4 = 0 ∧ ((0x1000 ≤ a ∧ a < 0x1540) ∨ (0x1600 ≤ a ∧ a < 0x1700) ∨ (0x2000 ≤ a ∧ a < 0x2800))) →
      step s = .next { s with status := { s.status with busErr := true }, inbox := rest })

/-- R26, R246: what a CTRL write does, BUSY or not, and the level of irq. -/
def Obligations.CtrlWriteActs : Prop :=
  ∀ (s : State) (v : Word) (rest : List Event), s.inReset = false → s.inbox = .hostWrite 0x008 v :: rest →
    ∃ t, step s = .next t ∧
      t.status = { s.status with
        cancelPend := s.status.cancelPend || (v.getLsbD 0 && s.status.busy)
        done := s.status.done && !v.getLsbD 1
        busErr := s.status.busErr && !v.getLsbD 1
        cmdRej := s.status.cmdRej && !v.getLsbD 1
        rxqOvf := s.status.rxqOvf && !v.getLsbD 1
        lineOvf := s.status.lineOvf && !v.getLsbD 1
        cherrIgn := s.status.cherrIgn && !v.getLsbD 1 } ∧
      t.regs = { s.regs with
        irqEn := v.getLsbD 2
        noiseCnt := if v.getLsbD 1 then 0 else s.regs.noiseCnt
        infoCnt := if v.getLsbD 1 then 0 else s.regs.infoCnt
        ignCnt := if v.getLsbD 1 then 0 else s.regs.ignCnt } ∧
      t = { s with status := t.status, regs := t.regs, inbox := rest } ∧
      busReadValue t 0x008 = (if v.getLsbD 2 then 4 else 0) ∧
      irq t = (t.status.done && v.getLsbD 2)
end

