-- ==== Sys2Proof/Laws/State.lean ====
section
/-! SUPPORT. One lemma per field per update of State, so that no later proof unfolds a record update. -/

namespace Sys2Proof.Machine

@[simp] theorem State.setStatus_cfg (s : State) (x : Status) : (s.setStatus x).cfg = s.cfg := rfl
@[simp] theorem State.setStatus_status (s : State) (x : Status) : (s.setStatus x).status = x := rfl
@[simp] theorem State.setStatus_regs (s : State) (x : Status) : (s.setStatus x).regs = s.regs := rfl
@[simp] theorem State.setStatus_mem (s : State) (x : Status) : (s.setStatus x).mem = s.mem := rfl
@[simp] theorem State.setStatus_rxq (s : State) (x : Status) : (s.setStatus x).rxq = s.rxq := rfl
@[simp] theorem State.setStatus_parser (s : State) (x : Status) : (s.setStatus x).parser = s.parser := rfl
@[simp] theorem State.setStatus_seq (s : State) (x : Status) : (s.setStatus x).seq = s.seq := rfl
@[simp] theorem State.setStatus_inReset (s : State) (x : Status) : (s.setStatus x).inReset = s.inReset := rfl
@[simp] theorem State.setStatus_resets (s : State) (x : Status) : (s.setStatus x).resets = s.resets := rfl
@[simp] theorem State.setStatus_inbox (s : State) (x : Status) : (s.setStatus x).inbox = s.inbox := rfl
@[simp] theorem State.setStatus_trace (s : State) (x : Status) : (s.setStatus x).trace = s.trace := rfl
@[simp] theorem State.setStatus_rdata (s : State) (x : Status) : (s.setStatus x).rdata = s.rdata := rfl
@[simp] theorem State.setStatus_setStatus (s : State) (x y : Status) : (s.setStatus x).setStatus y = s.setStatus y := rfl
@[simp] theorem State.setStatus_self (s : State) : s.setStatus s.status = s := rfl

@[simp] theorem State.setRegs_cfg (s : State) (x : Regs) : (s.setRegs x).cfg = s.cfg := rfl
@[simp] theorem State.setRegs_status (s : State) (x : Regs) : (s.setRegs x).status = s.status := rfl
@[simp] theorem State.setRegs_regs (s : State) (x : Regs) : (s.setRegs x).regs = x := rfl
@[simp] theorem State.setRegs_mem (s : State) (x : Regs) : (s.setRegs x).mem = s.mem := rfl
@[simp] theorem State.setRegs_rxq (s : State) (x : Regs) : (s.setRegs x).rxq = s.rxq := rfl
@[simp] theorem State.setRegs_parser (s : State) (x : Regs) : (s.setRegs x).parser = s.parser := rfl
@[simp] theorem State.setRegs_seq (s : State) (x : Regs) : (s.setRegs x).seq = s.seq := rfl
@[simp] theorem State.setRegs_inReset (s : State) (x : Regs) : (s.setRegs x).inReset = s.inReset := rfl
@[simp] theorem State.setRegs_resets (s : State) (x : Regs) : (s.setRegs x).resets = s.resets := rfl
@[simp] theorem State.setRegs_inbox (s : State) (x : Regs) : (s.setRegs x).inbox = s.inbox := rfl
@[simp] theorem State.setRegs_trace (s : State) (x : Regs) : (s.setRegs x).trace = s.trace := rfl
@[simp] theorem State.setRegs_rdata (s : State) (x : Regs) : (s.setRegs x).rdata = s.rdata := rfl
@[simp] theorem State.setRegs_setRegs (s : State) (x y : Regs) : (s.setRegs x).setRegs y = s.setRegs y := rfl
@[simp] theorem State.setRegs_self (s : State) : s.setRegs s.regs = s := rfl

@[simp] theorem State.setMem_cfg (s : State) (x : Memory) : (s.setMem x).cfg = s.cfg := rfl
@[simp] theorem State.setMem_status (s : State) (x : Memory) : (s.setMem x).status = s.status := rfl
@[simp] theorem State.setMem_regs (s : State) (x : Memory) : (s.setMem x).regs = s.regs := rfl
@[simp] theorem State.setMem_mem (s : State) (x : Memory) : (s.setMem x).mem = x := rfl
@[simp] theorem State.setMem_rxq (s : State) (x : Memory) : (s.setMem x).rxq = s.rxq := rfl
@[simp] theorem State.setMem_parser (s : State) (x : Memory) : (s.setMem x).parser = s.parser := rfl
@[simp] theorem State.setMem_seq (s : State) (x : Memory) : (s.setMem x).seq = s.seq := rfl
@[simp] theorem State.setMem_inReset (s : State) (x : Memory) : (s.setMem x).inReset = s.inReset := rfl
@[simp] theorem State.setMem_resets (s : State) (x : Memory) : (s.setMem x).resets = s.resets := rfl
@[simp] theorem State.setMem_inbox (s : State) (x : Memory) : (s.setMem x).inbox = s.inbox := rfl
@[simp] theorem State.setMem_trace (s : State) (x : Memory) : (s.setMem x).trace = s.trace := rfl
@[simp] theorem State.setMem_rdata (s : State) (x : Memory) : (s.setMem x).rdata = s.rdata := rfl
@[simp] theorem State.setMem_setMem (s : State) (x y : Memory) : (s.setMem x).setMem y = s.setMem y := rfl
@[simp] theorem State.setMem_self (s : State) : s.setMem s.mem = s := rfl

@[simp] theorem State.setRxq_cfg (s : State) (x : List Byte) : (s.setRxq x).cfg = s.cfg := rfl
@[simp] theorem State.setRxq_status (s : State) (x : List Byte) : (s.setRxq x).status = s.status := rfl
@[simp] theorem State.setRxq_regs (s : State) (x : List Byte) : (s.setRxq x).regs = s.regs := rfl
@[simp] theorem State.setRxq_mem (s : State) (x : List Byte) : (s.setRxq x).mem = s.mem := rfl
@[simp] theorem State.setRxq_rxq (s : State) (x : List Byte) : (s.setRxq x).rxq = x := rfl
@[simp] theorem State.setRxq_parser (s : State) (x : List Byte) : (s.setRxq x).parser = s.parser := rfl
@[simp] theorem State.setRxq_seq (s : State) (x : List Byte) : (s.setRxq x).seq = s.seq := rfl
@[simp] theorem State.setRxq_inReset (s : State) (x : List Byte) : (s.setRxq x).inReset = s.inReset := rfl
@[simp] theorem State.setRxq_resets (s : State) (x : List Byte) : (s.setRxq x).resets = s.resets := rfl
@[simp] theorem State.setRxq_inbox (s : State) (x : List Byte) : (s.setRxq x).inbox = s.inbox := rfl
@[simp] theorem State.setRxq_trace (s : State) (x : List Byte) : (s.setRxq x).trace = s.trace := rfl
@[simp] theorem State.setRxq_rdata (s : State) (x : List Byte) : (s.setRxq x).rdata = s.rdata := rfl
@[simp] theorem State.setRxq_setRxq (s : State) (x y : List Byte) : (s.setRxq x).setRxq y = s.setRxq y := rfl
@[simp] theorem State.setRxq_self (s : State) : s.setRxq s.rxq = s := rfl

@[simp] theorem State.setParser_cfg (s : State) (x : Parser) : (s.setParser x).cfg = s.cfg := rfl
@[simp] theorem State.setParser_status (s : State) (x : Parser) : (s.setParser x).status = s.status := rfl
@[simp] theorem State.setParser_regs (s : State) (x : Parser) : (s.setParser x).regs = s.regs := rfl
@[simp] theorem State.setParser_mem (s : State) (x : Parser) : (s.setParser x).mem = s.mem := rfl
@[simp] theorem State.setParser_rxq (s : State) (x : Parser) : (s.setParser x).rxq = s.rxq := rfl
@[simp] theorem State.setParser_parser (s : State) (x : Parser) : (s.setParser x).parser = x := rfl
@[simp] theorem State.setParser_seq (s : State) (x : Parser) : (s.setParser x).seq = s.seq := rfl
@[simp] theorem State.setParser_inReset (s : State) (x : Parser) : (s.setParser x).inReset = s.inReset := rfl
@[simp] theorem State.setParser_resets (s : State) (x : Parser) : (s.setParser x).resets = s.resets := rfl
@[simp] theorem State.setParser_inbox (s : State) (x : Parser) : (s.setParser x).inbox = s.inbox := rfl
@[simp] theorem State.setParser_trace (s : State) (x : Parser) : (s.setParser x).trace = s.trace := rfl
@[simp] theorem State.setParser_rdata (s : State) (x : Parser) : (s.setParser x).rdata = s.rdata := rfl
@[simp] theorem State.setParser_setParser (s : State) (x y : Parser) : (s.setParser x).setParser y = s.setParser y := rfl
@[simp] theorem State.setParser_self (s : State) : s.setParser s.parser = s := rfl

@[simp] theorem State.setSeq_cfg (s : State) (x : Seq) : (s.setSeq x).cfg = s.cfg := rfl
@[simp] theorem State.setSeq_status (s : State) (x : Seq) : (s.setSeq x).status = s.status := rfl
@[simp] theorem State.setSeq_regs (s : State) (x : Seq) : (s.setSeq x).regs = s.regs := rfl
@[simp] theorem State.setSeq_mem (s : State) (x : Seq) : (s.setSeq x).mem = s.mem := rfl
@[simp] theorem State.setSeq_rxq (s : State) (x : Seq) : (s.setSeq x).rxq = s.rxq := rfl
@[simp] theorem State.setSeq_parser (s : State) (x : Seq) : (s.setSeq x).parser = s.parser := rfl
@[simp] theorem State.setSeq_seq (s : State) (x : Seq) : (s.setSeq x).seq = x := rfl
@[simp] theorem State.setSeq_inReset (s : State) (x : Seq) : (s.setSeq x).inReset = s.inReset := rfl
@[simp] theorem State.setSeq_resets (s : State) (x : Seq) : (s.setSeq x).resets = s.resets := rfl
@[simp] theorem State.setSeq_inbox (s : State) (x : Seq) : (s.setSeq x).inbox = s.inbox := rfl
@[simp] theorem State.setSeq_trace (s : State) (x : Seq) : (s.setSeq x).trace = s.trace := rfl
@[simp] theorem State.setSeq_rdata (s : State) (x : Seq) : (s.setSeq x).rdata = s.rdata := rfl
@[simp] theorem State.setSeq_setSeq (s : State) (x y : Seq) : (s.setSeq x).setSeq y = s.setSeq y := rfl
@[simp] theorem State.setSeq_self (s : State) : s.setSeq s.seq = s := rfl

@[simp] theorem State.setInbox_cfg (s : State) (x : List Event) : (s.setInbox x).cfg = s.cfg := rfl
@[simp] theorem State.setInbox_status (s : State) (x : List Event) : (s.setInbox x).status = s.status := rfl
@[simp] theorem State.setInbox_regs (s : State) (x : List Event) : (s.setInbox x).regs = s.regs := rfl
@[simp] theorem State.setInbox_mem (s : State) (x : List Event) : (s.setInbox x).mem = s.mem := rfl
@[simp] theorem State.setInbox_rxq (s : State) (x : List Event) : (s.setInbox x).rxq = s.rxq := rfl
@[simp] theorem State.setInbox_parser (s : State) (x : List Event) : (s.setInbox x).parser = s.parser := rfl
@[simp] theorem State.setInbox_seq (s : State) (x : List Event) : (s.setInbox x).seq = s.seq := rfl
@[simp] theorem State.setInbox_inReset (s : State) (x : List Event) : (s.setInbox x).inReset = s.inReset := rfl
@[simp] theorem State.setInbox_resets (s : State) (x : List Event) : (s.setInbox x).resets = s.resets := rfl
@[simp] theorem State.setInbox_inbox (s : State) (x : List Event) : (s.setInbox x).inbox = x := rfl
@[simp] theorem State.setInbox_trace (s : State) (x : List Event) : (s.setInbox x).trace = s.trace := rfl
@[simp] theorem State.setInbox_rdata (s : State) (x : List Event) : (s.setInbox x).rdata = s.rdata := rfl
@[simp] theorem State.setInbox_setInbox (s : State) (x y : List Event) : (s.setInbox x).setInbox y = s.setInbox y := rfl
@[simp] theorem State.setInbox_self (s : State) : s.setInbox s.inbox = s := rfl

@[simp] theorem State.setTrace_cfg (s : State) (x : List OutEvent) : (s.setTrace x).cfg = s.cfg := rfl
@[simp] theorem State.setTrace_status (s : State) (x : List OutEvent) : (s.setTrace x).status = s.status := rfl
@[simp] theorem State.setTrace_regs (s : State) (x : List OutEvent) : (s.setTrace x).regs = s.regs := rfl
@[simp] theorem State.setTrace_mem (s : State) (x : List OutEvent) : (s.setTrace x).mem = s.mem := rfl
@[simp] theorem State.setTrace_rxq (s : State) (x : List OutEvent) : (s.setTrace x).rxq = s.rxq := rfl
@[simp] theorem State.setTrace_parser (s : State) (x : List OutEvent) : (s.setTrace x).parser = s.parser := rfl
@[simp] theorem State.setTrace_seq (s : State) (x : List OutEvent) : (s.setTrace x).seq = s.seq := rfl
@[simp] theorem State.setTrace_inReset (s : State) (x : List OutEvent) : (s.setTrace x).inReset = s.inReset := rfl
@[simp] theorem State.setTrace_resets (s : State) (x : List OutEvent) : (s.setTrace x).resets = s.resets := rfl
@[simp] theorem State.setTrace_inbox (s : State) (x : List OutEvent) : (s.setTrace x).inbox = s.inbox := rfl
@[simp] theorem State.setTrace_trace (s : State) (x : List OutEvent) : (s.setTrace x).trace = x := rfl
@[simp] theorem State.setTrace_rdata (s : State) (x : List OutEvent) : (s.setTrace x).rdata = s.rdata := rfl
@[simp] theorem State.setTrace_setTrace (s : State) (x y : List OutEvent) : (s.setTrace x).setTrace y = s.setTrace y := rfl
@[simp] theorem State.setTrace_self (s : State) : s.setTrace s.trace = s := rfl

@[simp] theorem State.setRdata_cfg (s : State) (x : Word) : (s.setRdata x).cfg = s.cfg := rfl
@[simp] theorem State.setRdata_status (s : State) (x : Word) : (s.setRdata x).status = s.status := rfl
@[simp] theorem State.setRdata_regs (s : State) (x : Word) : (s.setRdata x).regs = s.regs := rfl
@[simp] theorem State.setRdata_mem (s : State) (x : Word) : (s.setRdata x).mem = s.mem := rfl
@[simp] theorem State.setRdata_rxq (s : State) (x : Word) : (s.setRdata x).rxq = s.rxq := rfl
@[simp] theorem State.setRdata_parser (s : State) (x : Word) : (s.setRdata x).parser = s.parser := rfl
@[simp] theorem State.setRdata_seq (s : State) (x : Word) : (s.setRdata x).seq = s.seq := rfl
@[simp] theorem State.setRdata_inReset (s : State) (x : Word) : (s.setRdata x).inReset = s.inReset := rfl
@[simp] theorem State.setRdata_resets (s : State) (x : Word) : (s.setRdata x).resets = s.resets := rfl
@[simp] theorem State.setRdata_inbox (s : State) (x : Word) : (s.setRdata x).inbox = s.inbox := rfl
@[simp] theorem State.setRdata_trace (s : State) (x : Word) : (s.setRdata x).trace = s.trace := rfl
@[simp] theorem State.setRdata_rdata (s : State) (x : Word) : (s.setRdata x).rdata = x := rfl
@[simp] theorem State.setRdata_setRdata (s : State) (x y : Word) : (s.setRdata x).setRdata y = s.setRdata y := rfl
@[simp] theorem State.setRdata_self (s : State) : s.setRdata s.rdata = s := rfl

@[simp] theorem State.emit_cfg (s : State) (es : List OutEvent) : (s.emit es).cfg = s.cfg := rfl
@[simp] theorem State.emit_status (s : State) (es : List OutEvent) : (s.emit es).status = s.status := rfl
@[simp] theorem State.emit_regs (s : State) (es : List OutEvent) : (s.emit es).regs = s.regs := rfl
@[simp] theorem State.emit_mem (s : State) (es : List OutEvent) : (s.emit es).mem = s.mem := rfl
@[simp] theorem State.emit_rxq (s : State) (es : List OutEvent) : (s.emit es).rxq = s.rxq := rfl
@[simp] theorem State.emit_parser (s : State) (es : List OutEvent) : (s.emit es).parser = s.parser := rfl
@[simp] theorem State.emit_seq (s : State) (es : List OutEvent) : (s.emit es).seq = s.seq := rfl
@[simp] theorem State.emit_inReset (s : State) (es : List OutEvent) : (s.emit es).inReset = s.inReset := rfl
@[simp] theorem State.emit_resets (s : State) (es : List OutEvent) : (s.emit es).resets = s.resets := rfl
@[simp] theorem State.emit_inbox (s : State) (es : List OutEvent) : (s.emit es).inbox = s.inbox := rfl
@[simp] theorem State.emit_trace (s : State) (es : List OutEvent) : (s.emit es).trace = s.trace ++ es := rfl
@[simp] theorem State.emit_rdata (s : State) (es : List OutEvent) : (s.emit es).rdata = s.rdata := rfl

@[simp] theorem State.setBusErr_cfg (s : State) : s.setBusErr.cfg = s.cfg := rfl
@[simp] theorem State.setBusErr_status (s : State) : s.setBusErr.status = { s.status with busErr := true } := rfl
@[simp] theorem State.setBusErr_regs (s : State) : s.setBusErr.regs = s.regs := rfl
@[simp] theorem State.setBusErr_mem (s : State) : s.setBusErr.mem = s.mem := rfl
@[simp] theorem State.setBusErr_rxq (s : State) : s.setBusErr.rxq = s.rxq := rfl
@[simp] theorem State.setBusErr_parser (s : State) : s.setBusErr.parser = s.parser := rfl
@[simp] theorem State.setBusErr_seq (s : State) : s.setBusErr.seq = s.seq := rfl
@[simp] theorem State.setBusErr_inReset (s : State) : s.setBusErr.inReset = s.inReset := rfl
@[simp] theorem State.setBusErr_resets (s : State) : s.setBusErr.resets = s.resets := rfl
@[simp] theorem State.setBusErr_inbox (s : State) : s.setBusErr.inbox = s.inbox := rfl
@[simp] theorem State.setBusErr_trace (s : State) : s.setBusErr.trace = s.trace := rfl
@[simp] theorem State.setBusErr_rdata (s : State) : s.setBusErr.rdata = s.rdata := rfl

@[simp] theorem State.setCmdRej_cfg (s : State) : s.setCmdRej.cfg = s.cfg := rfl
@[simp] theorem State.setCmdRej_status (s : State) : s.setCmdRej.status = { s.status with cmdRej := true } := rfl
@[simp] theorem State.setCmdRej_regs (s : State) : s.setCmdRej.regs = s.regs := rfl
@[simp] theorem State.setCmdRej_mem (s : State) : s.setCmdRej.mem = s.mem := rfl
@[simp] theorem State.setCmdRej_rxq (s : State) : s.setCmdRej.rxq = s.rxq := rfl
@[simp] theorem State.setCmdRej_parser (s : State) : s.setCmdRej.parser = s.parser := rfl
@[simp] theorem State.setCmdRej_seq (s : State) : s.setCmdRej.seq = s.seq := rfl
@[simp] theorem State.setCmdRej_inReset (s : State) : s.setCmdRej.inReset = s.inReset := rfl
@[simp] theorem State.setCmdRej_resets (s : State) : s.setCmdRej.resets = s.resets := rfl
@[simp] theorem State.setCmdRej_inbox (s : State) : s.setCmdRej.inbox = s.inbox := rfl
@[simp] theorem State.setCmdRej_trace (s : State) : s.setCmdRej.trace = s.trace := rfl
@[simp] theorem State.setCmdRej_rdata (s : State) : s.setCmdRej.rdata = s.rdata := rfl

@[simp] theorem State.setRxqOvf_cfg (s : State) : s.setRxqOvf.cfg = s.cfg := rfl
@[simp] theorem State.setRxqOvf_status (s : State) : s.setRxqOvf.status = { s.status with rxqOvf := true } := rfl
@[simp] theorem State.setRxqOvf_regs (s : State) : s.setRxqOvf.regs = s.regs := rfl
@[simp] theorem State.setRxqOvf_mem (s : State) : s.setRxqOvf.mem = s.mem := rfl
@[simp] theorem State.setRxqOvf_rxq (s : State) : s.setRxqOvf.rxq = s.rxq := rfl
@[simp] theorem State.setRxqOvf_parser (s : State) : s.setRxqOvf.parser = s.parser := rfl
@[simp] theorem State.setRxqOvf_seq (s : State) : s.setRxqOvf.seq = s.seq := rfl
@[simp] theorem State.setRxqOvf_inReset (s : State) : s.setRxqOvf.inReset = s.inReset := rfl
@[simp] theorem State.setRxqOvf_resets (s : State) : s.setRxqOvf.resets = s.resets := rfl
@[simp] theorem State.setRxqOvf_inbox (s : State) : s.setRxqOvf.inbox = s.inbox := rfl
@[simp] theorem State.setRxqOvf_trace (s : State) : s.setRxqOvf.trace = s.trace := rfl
@[simp] theorem State.setRxqOvf_rdata (s : State) : s.setRxqOvf.rdata = s.rdata := rfl

@[simp] theorem State.setLineOvf_cfg (s : State) : s.setLineOvf.cfg = s.cfg := rfl
@[simp] theorem State.setLineOvf_status (s : State) : s.setLineOvf.status = { s.status with lineOvf := true } := rfl
@[simp] theorem State.setLineOvf_regs (s : State) : s.setLineOvf.regs = s.regs := rfl
@[simp] theorem State.setLineOvf_mem (s : State) : s.setLineOvf.mem = s.mem := rfl
@[simp] theorem State.setLineOvf_rxq (s : State) : s.setLineOvf.rxq = s.rxq := rfl
@[simp] theorem State.setLineOvf_parser (s : State) : s.setLineOvf.parser = s.parser := rfl
@[simp] theorem State.setLineOvf_seq (s : State) : s.setLineOvf.seq = s.seq := rfl
@[simp] theorem State.setLineOvf_inReset (s : State) : s.setLineOvf.inReset = s.inReset := rfl
@[simp] theorem State.setLineOvf_resets (s : State) : s.setLineOvf.resets = s.resets := rfl
@[simp] theorem State.setLineOvf_inbox (s : State) : s.setLineOvf.inbox = s.inbox := rfl
@[simp] theorem State.setLineOvf_trace (s : State) : s.setLineOvf.trace = s.trace := rfl
@[simp] theorem State.setLineOvf_rdata (s : State) : s.setLineOvf.rdata = s.rdata := rfl

@[simp] theorem State.setCherrIgn_cfg (s : State) : s.setCherrIgn.cfg = s.cfg := rfl
@[simp] theorem State.setCherrIgn_status (s : State) : s.setCherrIgn.status = { s.status with cherrIgn := true } := rfl
@[simp] theorem State.setCherrIgn_regs (s : State) : s.setCherrIgn.regs = s.regs := rfl
@[simp] theorem State.setCherrIgn_mem (s : State) : s.setCherrIgn.mem = s.mem := rfl
@[simp] theorem State.setCherrIgn_rxq (s : State) : s.setCherrIgn.rxq = s.rxq := rfl
@[simp] theorem State.setCherrIgn_parser (s : State) : s.setCherrIgn.parser = s.parser := rfl
@[simp] theorem State.setCherrIgn_seq (s : State) : s.setCherrIgn.seq = s.seq := rfl
@[simp] theorem State.setCherrIgn_inReset (s : State) : s.setCherrIgn.inReset = s.inReset := rfl
@[simp] theorem State.setCherrIgn_resets (s : State) : s.setCherrIgn.resets = s.resets := rfl
@[simp] theorem State.setCherrIgn_inbox (s : State) : s.setCherrIgn.inbox = s.inbox := rfl
@[simp] theorem State.setCherrIgn_trace (s : State) : s.setCherrIgn.trace = s.trace := rfl
@[simp] theorem State.setCherrIgn_rdata (s : State) : s.setCherrIgn.rdata = s.rdata := rfl

@[simp] theorem finish_cfg (c : Result) (s : State) : (finish c s).cfg = s.cfg := rfl
@[simp] theorem finish_status (c : Result) (s : State) : (finish c s).status = { s.status with result := c, done := true, busy := false, cancelPend := false } := rfl
@[simp] theorem finish_regs (c : Result) (s : State) : (finish c s).regs = s.regs := rfl
@[simp] theorem finish_mem (c : Result) (s : State) : (finish c s).mem = s.mem := rfl
@[simp] theorem finish_rxq (c : Result) (s : State) : (finish c s).rxq = s.rxq := rfl
@[simp] theorem finish_parser (c : Result) (s : State) : (finish c s).parser = s.parser := rfl
@[simp] theorem finish_seq (c : Result) (s : State) : (finish c s).seq = { s.seq with st := .idle, kind := .none, op := .none, waitLeft := 0 } := rfl
@[simp] theorem finish_inReset (c : Result) (s : State) : (finish c s).inReset = s.inReset := rfl
@[simp] theorem finish_resets (c : Result) (s : State) : (finish c s).resets = s.resets := rfl
@[simp] theorem finish_inbox (c : Result) (s : State) : (finish c s).inbox = s.inbox := rfl
@[simp] theorem finish_trace (c : Result) (s : State) : (finish c s).trace = s.trace := rfl
@[simp] theorem finish_rdata (c : Result) (s : State) : (finish c s).rdata = s.rdata := rfl

@[simp] theorem startOp_cfg (p : RunningOp) (s : State) : (startOp p s).cfg = s.cfg := rfl
@[simp] theorem startOp_status (p : RunningOp) (s : State) : (startOp p s).status = { s.status with busy := true, attempts := 0, outcome := .none, dataValid := false } := rfl
@[simp] theorem startOp_regs (p : RunningOp) (s : State) : (startOp p s).regs = { s.regs with respLen := 0 } := rfl
@[simp] theorem startOp_mem (p : RunningOp) (s : State) : (startOp p s).mem = s.mem := rfl
@[simp] theorem startOp_rxq (p : RunningOp) (s : State) : (startOp p s).rxq = s.rxq := rfl
@[simp] theorem startOp_parser (p : RunningOp) (s : State) : (startOp p s).parser = s.parser := rfl
@[simp] theorem startOp_seq (p : RunningOp) (s : State) : (startOp p s).seq = { s.seq with op := p } := rfl
@[simp] theorem startOp_inReset (p : RunningOp) (s : State) : (startOp p s).inReset = s.inReset := rfl
@[simp] theorem startOp_resets (p : RunningOp) (s : State) : (startOp p s).resets = s.resets := rfl
@[simp] theorem startOp_inbox (p : RunningOp) (s : State) : (startOp p s).inbox = s.inbox := rfl
@[simp] theorem startOp_trace (p : RunningOp) (s : State) : (startOp p s).trace = s.trace := rfl
@[simp] theorem startOp_rdata (p : RunningOp) (s : State) : (startOp p s).rdata = s.rdata := rfl

end Sys2Proof.Machine
end

