-- ==== Sys2Proof/Laws/Memory.lean ====
section
/-! SUPPORT. What the buffer operations do: reads after writes, the canonical form and its uniqueness. -/

namespace Sys2Proof.Machine

/-! ### Lookups in the parts of a written memory -/

theorem lookup_filter_key (m : Memory) (keep : Nat → Bool) (a : Nat) :
    (m.filter (fun c => keep c.1)).lookup a = if keep a then m.lookup a else none := by
  induction m with
  | nil => simp
  | cons c m ih =>
    obtain ⟨k, v⟩ := c
    by_cases hk : keep k <;> by_cases ha : a = k
    · subst ha; simp [hk]
    · have : (a == k) = false := by simpa using ha
      simp [hk, List.lookup_cons, this, ih]
    · subst ha; simp [hk, ih]
    · have : (a == k) = false := by simpa using ha
      simp [hk, List.lookup_cons, this, ih]

theorem lookup_append (m n : Memory) (a : Nat) : (m ++ n).lookup a = (m.lookup a).or (n.lookup a) := by
  induction m with
  | nil => simp
  | cons c m ih =>
    obtain ⟨k, v⟩ := c
    by_cases ha : a == k <;> simp [List.lookup_cons, ha, ih]

theorem Memory.mem_cells {c : Host.Cell} {a : Nat} {bs : List Byte} (h : c ∈ Memory.cells a bs) :
    a ≤ c.1 ∧ c.1 < a + bs.length ∧ bs[c.1 - a]? = some c.2 := by
  induction bs generalizing a with
  | nil => simp [Memory.cells] at h
  | cons b bs ih =>
    rcases List.mem_cons.1 h with rfl | h
    · simp
    · obtain ⟨h1, h2, h3⟩ := ih h
      refine ⟨by omega, by simp; omega, ?_⟩
      rw [show c.1 - a = (c.1 - (a + 1)) + 1 by omega]
      simpa using h3

theorem Memory.cells_pairwise (a : Nat) (bs : List Byte) :
    (Memory.cells a bs).Pairwise (fun x y => x.1 < y.1) := by
  induction bs generalizing a with
  | nil => simp [Memory.cells]
  | cons b bs ih =>
    refine List.pairwise_cons.2 ⟨fun c hc => ?_, ih _⟩
    have := (Memory.mem_cells hc).1
    simp only
    omega

theorem Memory.lookup_listed_cells (a x : Nat) (bs : List Byte) :
    ((Memory.listed (Memory.cells a bs)).lookup x).getD Memory.unlisted =
      if a ≤ x then bs.getD (x - a) Memory.unlisted else Memory.unlisted := by
  induction bs generalizing a with
  | nil => simp [Memory.cells, Memory.listed]
  | cons b bs ih =>
    have ih' := ih (a + 1)
    by_cases hx : x = a
    · subst hx
      by_cases hb : b = Memory.unlisted
      · subst hb
        simp only [Memory.cells, Memory.listed, ne_eq, decide_not] at *
        simp only [List.filter_cons]
        simpa using ih'
      · simp [Memory.cells, Memory.listed, hb]
    · have hk : (x == a) = false := by simpa using hx
      have e : ((Memory.listed (Memory.cells a (b :: bs))).lookup x).getD Memory.unlisted =
          ((Memory.listed (Memory.cells (a + 1) bs)).lookup x).getD Memory.unlisted := by
        by_cases hb : b = Memory.unlisted
        · simp [Memory.cells, Memory.listed, hb]
        · simp [Memory.cells, Memory.listed, hb, List.lookup_cons, hk]
      rw [e, ih']
      by_cases h : a ≤ x
      · have h1 : a + 1 ≤ x := by omega
        rw [if_pos h, if_pos h1, show x - a = (x - (a + 1)) + 1 by omega]
        simp
      · rw [if_neg h, if_neg (by omega)]

theorem Memory.lookup_listed_cells_none {a x : Nat} {bs : List Byte} (h : ¬(a ≤ x ∧ x < a + bs.length)) :
    (Memory.listed (Memory.cells a bs)).lookup x = none := by
  rw [List.lookup_eq_none_iff]
  intro c hc
  have := Memory.mem_cells (List.mem_filter.1 hc).1
  simp
  omega

/-! ### Reads after writes -/

/-- A read after a write: the stored byte inside the stored range, the old byte elsewhere. -/
theorem Memory.read_write (m : Memory) (a : Nat) (bs : List Byte) (x : Nat) :
    (m.write a bs).read x = if a ≤ x ∧ x < a + bs.length then bs.getD (x - a) Memory.unlisted else m.read x := by
  have f1 := lookup_filter_key m (fun k => decide (k < a)) x
  have f2 := lookup_filter_key m (fun k => decide (a + bs.length ≤ k)) x
  simp only [Memory.read, Memory.write, lookup_append, f1, f2]
  by_cases h : a ≤ x ∧ x < a + bs.length
  · have h1 : ¬ x < a := by omega
    have h2 : ¬ a + bs.length ≤ x := by omega
    have := Memory.lookup_listed_cells a x bs
    simp only [h1, h2, decide_false, Bool.false_eq_true, if_false, Option.none_or, Option.or_none, this, h, and_self,
      if_true]
  · rw [Memory.lookup_listed_cells_none h, if_neg h]
    by_cases h1 : x < a
    · have h2 : ¬ a + bs.length ≤ x := by omega
      simp [h1, h2]
    · have h2 : a + bs.length ≤ x := by omega
      simp [h1, h2]

theorem Memory.read_write_inside {m : Memory} {a x : Nat} {bs : List Byte} (h1 : a ≤ x) (h2 : x < a + bs.length) :
    (m.write a bs).read x = bs.getD (x - a) Memory.unlisted := by
  rw [Memory.read_write, if_pos ⟨h1, h2⟩]

theorem Memory.read_write_outside {m : Memory} {a x : Nat} {bs : List Byte} (h : x < a ∨ a + bs.length ≤ x) :
    (m.write a bs).read x = m.read x := by
  rw [Memory.read_write, if_neg (by omega)]

@[simp] theorem Memory.length_readBytes (m : Memory) (a n : Nat) : (m.readBytes a n).length = n := by
  simp [Memory.readBytes]

/-- The bytes just stored read back. -/
theorem Memory.readBytes_write (m : Memory) (a : Nat) (bs : List Byte) :
    (m.write a bs).readBytes a bs.length = bs := by
  apply List.ext_getElem
  · simp
  · intro i h1 h2
    simp [Memory.readBytes, Memory.read_write_inside (show a ≤ a + i by omega) (show a + i < a + bs.length by omega),
      List.getD_eq_getElem?_getD, h2]

/-- A write elsewhere leaves a range of bytes alone. -/
theorem Memory.readBytes_write_outside {m : Memory} {a x n : Nat} {bs : List Byte}
    (h : x + n ≤ a ∨ a + bs.length ≤ x) : (m.write a bs).readBytes x n = m.readBytes x n := by
  simp only [Memory.readBytes]
  refine List.map_congr_left fun i hi => Memory.read_write_outside ?_
  have := List.mem_range.1 hi
  omega

@[simp] theorem length_bytesOfWord (w : Word) : (bytesOfWord w).length = 4 := rfl

theorem append_bytesOfWord (w : Word) :
    w.extractLsb' 24 8 ++ w.extractLsb' 16 8 ++ w.extractLsb' 8 8 ++ w.extractLsb' 0 8 = w := by
  apply BitVec.eq_of_getLsbD_eq
  intro i hi
  simp only [BitVec.getLsbD_append, BitVec.getLsbD_extractLsb']
  by_cases h1 : i < 8
  · simp [h1]
  · by_cases h2 : i - 8 < 8
    · simp [h1, h2, show 8 + (i - 8) = i by omega]
    · by_cases h3 : i - 8 - 8 < 8
      · simp [h1, h2, h3, show 16 + (i - 8 - 8) = i by omega]
      · simp [h1, h2, h3, show 24 + (i - 8 - 8 - 8) = i by omega, show i - 8 - 8 - 8 < 8 by omega]

/-- The word just stored reads back. -/
theorem Memory.readWord_writeWord (m : Memory) (a : Nat) (w : Word) : (m.writeWord a w).readWord a = w := by
  simp only [Memory.readWord, Memory.writeWord]
  rw [Memory.read_write_inside (by omega) (by simp), Memory.read_write_inside (by omega) (by simp),
    Memory.read_write_inside (by omega) (by simp), Memory.read_write_inside (by omega) (by simp)]
  simpa [bytesOfWord] using append_bytesOfWord w

/-! ### The canonical form -/

/-- Every write keeps the canonical form, if the bytes lie in the buffers. -/
theorem Memory.wf_write {m : Memory} (h : m.wf) {a : Nat} {bs : List Byte}
    (hin : ∀ x, a ≤ x → x < a + bs.length → inBuffers x = true) : (m.write a bs).wf := by
  obtain ⟨hs, hc⟩ := h
  refine ⟨?_, ?_⟩
  · simp only [Memory.write, List.append_assoc]
    rw [List.pairwise_append, List.pairwise_append]
    refine ⟨hs.filter _, ⟨(Memory.cells_pairwise a bs).filter _, hs.filter _, ?_⟩, ?_⟩
    · intro x hx y hy
      have := Memory.mem_cells (List.mem_filter.1 hx).1
      have := (List.mem_filter.1 hy).2
      simp at this
      omega
    · intro x hx y hy
      have h1 := (List.mem_filter.1 hx).2
      simp at h1
      rcases List.mem_append.1 hy with hy | hy
      · have := Memory.mem_cells (List.mem_filter.1 hy).1
        omega
      · have h2 := (List.mem_filter.1 hy).2
        simp at h2
        omega
  · intro c hcm
    simp only [Memory.write, List.mem_append] at hcm
    rcases hcm with (hcm | hcm) | hcm
    · exact hc c (List.mem_filter.1 hcm).1
    · have h1 := Memory.mem_cells (List.mem_filter.1 hcm).1
      have h2 := (List.mem_filter.1 hcm).2
      exact ⟨hin c.1 h1.1 h1.2.1, by simpa using h2⟩
    · exact hc c (List.mem_filter.1 hcm).1

theorem Memory.wf_nil : Memory.wf [] := by simp [Memory.wf]

/-- The buffers after a reset release are in canonical form, whatever they hold. -/
theorem Memory.wf_afterReset (n : Nat) : (Memory.afterReset n).wf := by
  refine ⟨?_, ?_⟩
  · refine List.Pairwise.filter _ ?_
    rw [List.pairwise_map]
    exact List.Pairwise.filter _ List.pairwise_lt_range
  · intro c hc
    obtain ⟨h1, h2⟩ := List.mem_filter.1 hc
    obtain ⟨a, ha, rfl⟩ := List.mem_map.1 h1
    exact ⟨(List.mem_filter.1 ha).2, by simpa using h2⟩

/-- An unlisted byte is one that reads as `Memory.unlisted`. -/
theorem Memory.lookup_eq_none_of_read {m : Memory} (h : m.wf) {a : Nat} (hr : m.read a = Memory.unlisted) :
    m.lookup a = none := by
  cases hl : m.lookup a with
  | none => rfl
  | some v =>
    have hv : v = Memory.unlisted := by simpa [Memory.read, hl] using hr
    obtain ⟨l1, l2, e, -⟩ := List.lookup_eq_some_iff.1 hl
    exact absurd hv (h.2 (a, v) (by rw [e]; simp)).2

theorem Memory.read_head (c : Host.Cell) (m : Memory) : Memory.read (c :: m) c.1 = c.2 := by
  obtain ⟨a, v⟩ := c
  simp [Memory.read]

theorem Memory.read_tail {c : Host.Cell} {a : Nat} (h : a ≠ c.1) (m : Memory) :
    Memory.read (c :: m) a = m.read a := by
  obtain ⟨k, v⟩ := c
  have : (a == k) = false := by simpa using h
  simp [Memory.read, List.lookup_cons, this]

theorem Memory.read_eq_unlisted {m : Memory} {a : Nat} (h : ∀ c ∈ m, a ≠ c.1) : m.read a = Memory.unlisted := by
  have : m.lookup a = none := List.lookup_eq_none_iff.2 fun c hc => by simpa using h c hc
  simp [Memory.read, this]

/-- Canonical memories that read alike are equal. -/
theorem Memory.ext_read {m n : Memory} (hm : m.wf) (hn : n.wf) (h : ∀ a, m.read a = n.read a) : m = n := by
  induction m generalizing n with
  | nil =>
    cases n with
    | nil => rfl
    | cons c n =>
      have h1 := h c.1
      rw [Memory.read_head] at h1
      exact absurd h1.symm (hn.2 c (by simp)).2
  | cons c m ih =>
    cases n with
    | nil =>
      have h1 := h c.1
      rw [Memory.read_head] at h1
      exact absurd h1 (hm.2 c (by simp)).2
    | cons d n =>
      have hm1 := List.pairwise_cons.1 hm.1
      have hn1 := List.pairwise_cons.1 hn.1
      have key : c.1 = d.1 := by
        by_contra hne
        rcases Nat.lt_or_gt_of_ne hne with hlt | hlt
        · have h1 := h c.1
          rw [Memory.read_head, Memory.read_eq_unlisted (m := d :: n)] at h1
          · exact (hm.2 c (by simp)).2 h1
          · rintro x (_ | ⟨_, hx⟩)
            · exact hne
            · exact (Nat.lt_trans hlt (hn1.1 x hx)).ne
        · have h1 := h d.1
          rw [Memory.read_head, Memory.read_eq_unlisted (m := c :: m)] at h1
          · exact (hn.2 d (by simp)).2 h1.symm
          · rintro x (_ | ⟨_, hx⟩)
            · exact hlt.ne
            · exact (Nat.lt_trans hlt (hm1.1 x hx)).ne
      have val : c.2 = d.2 := by
        have h1 := h c.1
        rwa [Memory.read_head, key, Memory.read_head] at h1
      have hcd : c = d := Prod.ext key val
      subst hcd
      congr 1
      refine ih ⟨hm1.2, fun x hx => hm.2 x (by simp [hx])⟩ ⟨hn1.2, fun x hx => hn.2 x (by simp [hx])⟩ fun a => ?_
      by_cases ha : a = c.1
      · rw [Memory.read_eq_unlisted fun x hx => ha ▸ (hm1.1 x hx).ne,
          Memory.read_eq_unlisted fun x hx => ha ▸ (hn1.1 x hx).ne]
      · have h1 := h a
        rwa [Memory.read_tail ha, Memory.read_tail ha] at h1

end Sys2Proof.Machine
end

