-- ==== Sys2Proof/Laws/Moves.lean ====
section
/-! SUPPORT. What the at unit can do, said once: every event of the sequencer is a chain of elementary moves. A fact
that each elementary move keeps is kept by every event, without unfolding the sequencer. -/

namespace Sys2Proof.Machine

/-- The elementary state changes of the at unit (42_at_sequencer R173 to R217; 60_exceptions R241). -/
inductive Move : State → State → Prop where
  | finish (c : Result) (s : State) : Move s (finish c s)
  | exchange (k : Kind) (bs : List Byte) (s : State) : s.status.cancelPend = false →
      Move s ((((s.setSeq { s.seq with kind := k, st := .xDrain }).setRxq []).setParser
        { s.parser with line := [], payload := none }).emit (exchangeOutput bs))
  | countAttempt (s : State) : s.status.cancelPend = false →
      Move s (s.setStatus { s.status with attempts := s.status.attempts + 1 })
  | wait (d : Word) (w : SeqState) (s : State) : d ≠ 0 → Move s (s.setSeq { s.seq with waitLeft := d, st := w })
  | waitTick (s : State) : Move s (s.setSeq { s.seq with waitLeft := s.seq.waitLeft - 1 })
  | setOutcome (o : RxOutcome) (s : State) : Move s (setOutcome o s)
  | aliveUpdate (s : State) : Move s (aliveUpdate s)
  | responseUpdate (s : State) : Move s (responseUpdate s)
  | restartCountdown (s : State) : Move s (restartCountdown s)
  | clearLine (s : State) : Move s (s.setParser { s.parser with line := [] })
  | extendLine (b : Byte) (s : State) : 0x20 ≤ b ∧ b ≤ 0x7E → s.parser.line.length < lineMax →
      Move s (s.setParser { s.parser with line := s.parser.line ++ [b] })
  | retainPayload (l : List Byte) (s : State) : s.parser.payload = none → l.head? = some 0x2B →
      Move s (s.setParser { s.parser with payload := some l })
  | lineOvf (s : State) : Move s s.setLineOvf
  | countInfo (s : State) : Move s (countInfo s)
  | countIgn (s : State) : Move s (countIgn s)
  | countNoise (s : State) : Move s (countNoise s)
  | popQueue (b : Byte) (q : List Byte) (s : State) : s.rxq = b :: q → Move s (s.setRxq q)
  | pushQueue (b : Byte) (s : State) : s.rxq.length < s.cfg.rxqCap → Move s (s.setRxq (s.rxq ++ [b]))
  | rxqOvf (s : State) : Move s s.setRxqOvf
  | openRecv (s : State) : Move s (openRecv s)
  | recvCountdown (s : State) : Move s (recvCountdown s)
  | chunk (s : State) : s.status.cancelPend = false →
      Move s ((s.emit ((payloadBytes s s.seq.rawPos.toNat (chunkSize s)).map .tx ++ [.drainReq])).setSeq
        { s.seq with rawCur := BitVec.ofNat 32 (chunkSize s), st := .rawDrain })
  | chunkDrained (s : State) :
      Move s ((s.setSeq { s.seq with rawPos := s.seq.rawPos + s.seq.rawCur }).setRegs
        { s.regs with rawProgress := s.seq.rawPos + s.seq.rawCur })
  | countElapsed (s : State) : Move s (countElapsed s)
  | cherrIgn (s : State) : Move s s.setCherrIgn

/-- A chain of elementary moves. -/
abbrev Moves : State → State → Prop := Relation.ReflTransGen Move

theorem Move.chain {s t : State} (h : Move s t) : Moves s t := Relation.ReflTransGen.single h

/-- A property that every elementary move keeps is kept by a chain. -/
theorem Moves.keeps {P : State → Prop} (hP : ∀ s t, Move s t → P s → P t) {s t : State} (h : Moves s t) (hs : P s) :
    P t := by
  induction h with
  | refl => exact hs
  | tail _ hm ih => exact hP _ _ hm ih

/-- A value that no elementary move changes is unchanged by a chain. -/
theorem Moves.same {α : Type} {f : State → α} (hf : ∀ s t, Move s t → f t = f s) {s t : State} (h : Moves s t) :
    f t = f s := h.keeps (P := fun u => f u = f s) (fun _ _ hm e => (hf _ _ hm).trans e) rfl

theorem startExchange_moves (k : Kind) (bs : List Byte) (s : State) : Moves s (startExchange k bs s) := by
  unfold startExchange
  split
  · exact (Move.finish _ s).chain
  · exact (Move.exchange k bs s (by simp_all)).chain

theorem beginAttempt_moves (s : State) : Moves s (beginAttempt s) := by
  unfold beginAttempt
  split
  · exact (Move.finish _ s).chain
  · exact (Move.countAttempt s (by simp_all)).chain.trans (startExchange_moves _ _ _)

theorem waitIn_moves {d : Word} {w : SeqState} {k : State → State} (hk : ∀ s, Moves s (k s)) (s : State) :
    Moves s (waitIn d w k s) := by
  unfold waitIn
  split
  · exact hk s
  · exact (Move.wait d w s ‹_›).chain

theorem commandSuccess_moves (s : State) : Moves s (commandSuccess s) := by
  unfold commandSuccess
  repeat' split
  all_goals exact (Move.finish _ s).chain

theorem afterCommand_moves (o : RxOutcome) (s : State) : Moves s (afterCommand o s) := by
  unfold afterCommand
  repeat' split
  all_goals first
    | exact commandSuccess_moves s
    | exact waitIn_moves beginAttempt_moves s
    | exact startExchange_moves _ _ s
    | exact (Move.finish _ s).chain

theorem aliveIfOk_moves (o : RxOutcome) (s : State) : Moves s (aliveIfOk o s) := by
  unfold aliveIfOk
  split
  · exact (Move.aliveUpdate s).chain
  · exact .refl

theorem endExchange_moves (o : RxOutcome) (s : State) : Moves s (endExchange o s) := by
  have probe : Moves s (aliveIfOk o (setOutcome o s)) :=
    (Move.setOutcome o s).chain.trans (aliveIfOk_moves _ _)
  unfold endExchange
  repeat' split
  · exact probe.trans (Move.finish _ _).chain
  · exact probe.trans (beginAttempt_moves _)
  · exact probe.trans (Move.finish _ _).chain
  · exact ((Move.setOutcome o s).chain.trans (Move.responseUpdate _).chain).trans (afterCommand_moves _ _)
  · exact (aliveIfOk_moves _ _).trans (beginAttempt_moves _)
  · exact .refl
  · exact .refl

theorem endRaw_moves (o : RxOutcome) (s : State) : Moves s (endRaw o s) :=
  ((Move.setOutcome o s).chain.trans (Move.responseUpdate _).chain).trans (Move.finish _ _).chain

theorem endRecv_moves (o : RxOutcome) (s : State) : Moves s (endRecv o s) := by
  unfold endRecv
  split
  · exact endRaw_moves o s
  · exact endExchange_moves o s

theorem endByTimeout_moves (s : State) : Moves s (endByTimeout s) := by
  unfold endByTimeout
  split
  · exact endRecv_moves _ s
  · exact endRecv_moves _ s

theorem classify_moves (l : List Byte) (s : State) : Moves s (classify l s).1 := by
  unfold classify
  repeat' split
  · exact .refl
  · exact .refl
  · exact (Move.countInfo s).chain
  · exact (Move.retainPayload l s ‹_› ‹_›).chain
  · exact (Move.countIgn s).chain
  · exact (Move.countIgn s).chain

theorem consumeByte_moves (b : Byte) (s : State) : Moves s (consumeByte b s).1 := by
  unfold consumeByte
  repeat' split
  · exact .refl
  · exact (Move.clearLine s).chain.trans (classify_moves _ _)
  · exact .refl
  · exact (Move.extendLine b s ‹_› ‹_›).chain
  · exact (Move.lineOvf s).chain
  · exact (Move.clearLine s).chain.trans (Move.countNoise _).chain

theorem consume_moves (b : Byte) (s : State) : Moves s (consume b s).1 :=
  (Move.restartCountdown s).chain.trans (consumeByte_moves _ _)

theorem receiveByte_moves (b : Byte) (s : State) : Moves s (receiveByte b s) := by
  have h := consume_moves b s
  unfold receiveByte
  split
  · simp_all
  · next t o e =>
    rw [e] at h
    exact h.trans (endRecv_moves _ _)

/-- Consuming a byte leaves RXQ alone. -/
theorem consume_rxq (b : Byte) (s : State) : (consume b s).1.rxq = s.rxq := by
  unfold consume consumeByte classify
  repeat' split
  all_goals rfl

theorem drainQueue_moves (q : List Byte) (s : State) (hq : s.rxq = q) : Moves s (drainQueue q s).1 := by
  induction q generalizing s with
  | nil => exact .refl
  | cons b q ih =>
    have h1 : Moves s (s.setRxq q) := (Move.popQueue b q s hq).chain
    have h2 := consume_moves b (s.setRxq q)
    have h3 := consume_rxq b (s.setRxq q)
    unfold drainQueue
    split
    · next t e =>
      rw [e] at h2 h3
      exact (h1.trans h2).trans (ih t h3)
    · next t o e =>
      rw [e] at h2
      exact (h1.trans h2).trans (endRecv_moves o t)

theorem enterRecv_moves (s : State) : Moves s (enterRecv s) := by
  have h := (Move.openRecv s).chain.trans (drainQueue_moves s.rxq (openRecv s) rfl)
  unfold enterRecv
  split
  · next t e =>
    rw [e] at h
    split
    · exact h.trans (endByTimeout_moves t)
    · exact h
  · next t e =>
    rw [e] at h
    exact h

theorem recvTick_moves (s : State) : Moves s (recvTick s) := by
  have h := (Move.recvCountdown s).chain
  unfold recvTick
  simp only
  repeat' split
  · exact h.trans (endByTimeout_moves _)
  · exact h.trans (endByTimeout_moves _)
  · exact h

theorem rawChunk_moves (s : State) : Moves s (rawChunk s) := by
  unfold rawChunk
  split
  · exact (Move.finish _ s).chain
  · exact (Move.chunk s (by simp_all)).chain

theorem rawDrained_moves (s : State) : Moves s (rawDrained s) := by
  have h := (Move.chunkDrained s).chain
  unfold rawDrained
  simp only
  split
  · exact h.trans (waitIn_moves enterRecv_moves _)
  · exact h.trans (waitIn_moves rawChunk_moves _)

theorem countdown_moves {k : State → State} (hk : ∀ s, Moves s (k s)) (s : State) : Moves s (countdown k s) := by
  have h := (Move.waitTick s).chain
  unfold countdown
  simp only
  split
  · exact h.trans (hk _)
  · exact h

theorem payloadTick_moves {k : State → State} (hk : ∀ s, Moves s (k s)) (s : State) : Moves s (payloadTick k s) := by
  have h := (Move.countElapsed s).chain
  unfold payloadTick
  simp only
  split
  · exact h.trans (Move.finish _ _).chain
  · exact h.trans (hk _)

/-- What a Tick does after NOW has advanced. -/
theorem tickAction_moves (s : State) : Moves s (tickAction s) := by
  unfold tickAction
  split
  · exact .refl
  · exact .refl
  · exact countdown_moves enterRecv_moves s
  · exact recvTick_moves s
  · exact countdown_moves beginAttempt_moves s
  · exact payloadTick_moves (fun _ => .refl) s
  · exact payloadTick_moves (countdown_moves rawChunk_moves) s
  · exact countdown_moves enterRecv_moves s
  · exact recvTick_moves s

theorem queueByte_moves (b : Byte) (s : State) : Moves s (queueByte b s) := by
  unfold queueByte
  split
  · exact (Move.pushQueue b s ‹_›).chain
  · exact (Move.rxqOvf s).chain

theorem onRx_moves (b : Byte) (s : State) : Moves s (onRx b s) := by
  unfold onRx
  split
  · exact receiveByte_moves b s
  · exact receiveByte_moves b s
  all_goals exact queueByte_moves b s

theorem onDrainDone_moves (s : State) : Moves s (onDrainDone s) := by
  unfold onDrainDone
  split
  · exact waitIn_moves enterRecv_moves s
  · exact rawDrained_moves s
  all_goals exact .refl

theorem onChErr_moves (s : State) : Moves s (onChErr s) := by
  have raw : Moves s (finish .channelError (setOutcome .invalid s)) :=
    (Move.setOutcome _ s).chain.trans (Move.finish _ _).chain
  unfold onChErr
  split
  · exact endExchange_moves _ s
  · exact endExchange_moves _ s
  · exact endExchange_moves _ s
  · exact endRaw_moves _ s
  · exact raw
  · exact raw
  · exact raw
  · exact (Move.cherrIgn s).chain
  · exact (Move.cherrIgn s).chain

/-- `contains` is the infix relation (00_scope R12). -/
theorem contains_iff_infix (s m : List Byte) : contains s m = true ↔ m <:+: s := by
  simp only [contains, List.any_eq_true, List.mem_range, beq_iff_eq]
  constructor
  · rintro ⟨k, _, h⟩
    exact ⟨s.take k, (s.drop k).drop m.length, by
      conv_rhs => rw [← List.take_append_drop k s, ← List.take_append_drop m.length (s.drop k)]
      rw [h, List.append_assoc]⟩
  · rintro ⟨a, b, h⟩
    refine ⟨a.length, by rw [← h]; simp, ?_⟩
    rw [← h]; simp

end Sys2Proof.Machine
end

