-- ==== Sys2Proof/Laws/PerInstr.lean ====
section
/-! SUPPORT. What holds of every op as syntax, one lemma per constructor of `Instr`. -/

namespace Sys2Proof.Laws.EncodingLayout

/-- The command word of a well-formed op lays out the fields of 30_encoding R81: RSVD is 0, OPCODE and FLAGS are the
op's, and only AT_EXEC has FLAGS, of which bits 3:2 are 0 (R83). -/
def Statement (i : Instr) : Prop :=
  WellFormed i = true →
    rsvdField (encode i) = 0 ∧ opcodeField (encode i) = opcodeOf i ∧ flagsField (encode i) = flagsOf i ∧
      (flagsField (encode i) ≠ 0 → opcodeField (encode i) = 0x21) ∧ (flagsField (encode i)).extractLsb' 2 2 = 0

theorem nop : Statement .nop := by unfold Statement; decide
theorem cwCrc : Statement .cwCrc := by unfold Statement; decide
theorem cwParity : Statement .cwParity := by unfold Statement; decide
theorem cwEncode : Statement .cwEncode := by unfold Statement; decide
theorem cwAddr : Statement .cwAddr := by unfold Statement; decide
theorem cwCheck : Statement .cwCheck := by unfold Statement; decide
theorem frText : Statement .frText := by unfold Statement; decide
theorem frFrame : Statement .frFrame := by unfold Statement; decide
theorem atProbe : Statement .atProbe := by unfold Statement; decide
theorem atExec (flags : BitVec 4) : Statement (.atExec flags) := by
  unfold Statement; revert flags; decide
theorem atRaw : Statement .atRaw := by unfold Statement; decide

end Sys2Proof.Laws.EncodingLayout
end

