-- ==== Sys2Proof/Laws/Step.lean ====
section
/-! SUPPORT. What a step, a command, a bus access and each shared operation can do: one inversion lemma each, which
later proofs cite instead of unfolding. -/

namespace Sys2Proof.Machine

/-! ### Shared operations -/

theorem accept_busy {s : State} (h : s.status.busy = true) (k : State → State) : accept k s = s.setCmdRej := by
  simp [accept, h]

theorem accept_idle {s : State} (h : s.status.busy = false) (k : State → State) :
    accept k s = k (s.setStatus { s.status with done := false }) := by
  simp [accept, h]

/-- A command is refused while BUSY and accepted otherwise (10_state R22). -/
theorem accept_cases (k : State → State) (s : State) :
    (s.status.busy = true ∧ accept k s = s.setCmdRej) ∨
    (s.status.busy = false ∧ accept k s = k (s.setStatus { s.status with done := false })) := by
  cases h : s.status.busy
  · exact .inr ⟨rfl, accept_idle h k⟩
  · exact .inl ⟨rfl, accept_busy h k⟩

/-- An idle state has no op, no kind, no wait and no cancel pending (42_at_sequencer R220; 10_state R23). -/
theorem idle_control {s : State} (h : Idle s) :
    s.status.busy = false ∧ s.status.cancelPend = false ∧ s.seq.st = .idle ∧ s.seq.kind = .none ∧ s.seq.op = .none ∧
      s.seq.waitLeft = 0 := by
  obtain ⟨⟨h1, h2, -, h4, -, h6⟩, hb⟩ := h
  have hst : s.seq.st = .idle := by
    by_contra hn
    simp [h2.2 hn] at hb
  have hc : s.status.cancelPend = false := by
    cases hcp : s.status.cancelPend
    · rfl
    · simp [h4 hcp] at hb
  rw [hst] at h1
  refine ⟨hb, hc, hst, ?_, ?_, h6 hst⟩ <;> revert h1 <;> cases s.seq.op <;> cases s.seq.kind <;> simp [legalControl]

/-- Accepting a command keeps an idle state idle: it only clears DONE (30_encoding R84). -/
theorem idle_accepted {s : State} (h : Idle s) : Idle (s.setStatus { s.status with done := false }) := by
  obtain ⟨⟨h1, h2, -, h4, h5, h6⟩, hb⟩ := h
  exact ⟨⟨h1, h2, fun _ => rfl, h4, h5, h6⟩, hb⟩

/-- In an idle state `finish` writes DONE and RESULT and nothing else (60_exceptions R241). -/
theorem finish_idle {s : State} (h : Idle s) (c : Result) : finish c s = completed c s := by
  obtain ⟨hb, hc, hst, hk, ho, hw⟩ := idle_control h
  cases s with
  | mk cfg status regs mem rxq parser seq inReset resets inbox trace rdata =>
    cases status; cases seq
    simp_all [finish, completed, State.setStatus, State.setSeq]

theorem waitIn_cases (d : Word) (w : SeqState) (k : State → State) (s : State) :
    (d = 0 ∧ waitIn d w k s = k s) ∨
    (d ≠ 0 ∧ waitIn d w k s = s.setSeq { s.seq with waitLeft := d, st := w }) := by
  by_cases h : d = 0
  · exact .inl ⟨h, if_pos h⟩
  · exact .inr ⟨h, if_neg h⟩

theorem countdown_cases (k : State → State) (s : State) :
    (s.seq.waitLeft - 1 = 0 ∧ countdown k s = k (s.setSeq { s.seq with waitLeft := s.seq.waitLeft - 1 })) ∨
    (s.seq.waitLeft - 1 ≠ 0 ∧ countdown k s = s.setSeq { s.seq with waitLeft := s.seq.waitLeft - 1 }) := by
  by_cases h : s.seq.waitLeft - 1 = 0
  · exact .inl ⟨h, if_pos h⟩
  · exact .inr ⟨h, if_neg h⟩

theorem startExchange_cases (k : Kind) (bs : List Byte) (s : State) :
    (s.status.cancelPend = true ∧ startExchange k bs s = finish .cancelled s) ∨
    (s.status.cancelPend = false ∧ startExchange k bs s =
      (((s.setSeq { s.seq with kind := k, st := .xDrain }).setRxq []).setParser
        { s.parser with line := [], payload := none }).emit (exchangeOutput bs)) := by
  cases h : s.status.cancelPend
  · exact .inr ⟨rfl, by simp [startExchange, h]⟩
  · exact .inl ⟨rfl, by simp [startExchange, h]⟩

theorem beginAttempt_cases (s : State) :
    (s.status.cancelPend = true ∧ beginAttempt s = finish .cancelled s) ∨
    (s.status.cancelPend = false ∧ beginAttempt s =
      startExchange .cmd (commandBytes s) (s.setStatus { s.status with attempts := s.status.attempts + 1 })) := by
  cases h : s.status.cancelPend
  · exact .inr ⟨rfl, by simp [beginAttempt, h]⟩
  · exact .inl ⟨rfl, by simp [beginAttempt, h]⟩

theorem rawChunk_cases (s : State) :
    (s.status.cancelPend = true ∧ rawChunk s = finish .cancelled s) ∨
    (s.status.cancelPend = false ∧ rawChunk s =
      (s.emit ((payloadBytes s s.seq.rawPos.toNat (chunkSize s)).map .tx ++ [.drainReq])).setSeq
        { s.seq with rawCur := BitVec.ofNat 32 (chunkSize s), st := .rawDrain }) := by
  cases h : s.status.cancelPend
  · exact .inr ⟨rfl, by simp [rawChunk, h]⟩
  · exact .inl ⟨rfl, by simp [rawChunk, h]⟩

theorem payloadTick_cases (k : State → State) (s : State) :
    ((countElapsed s).seq.rawElapsed ≥ s.cfg.payloadTimeoutMs ∧
      payloadTick k s = finish .timeoutError (countElapsed s)) ∨
    ((countElapsed s).seq.rawElapsed < s.cfg.payloadTimeoutMs ∧ payloadTick k s = k (countElapsed s)) := by
  by_cases h : (countElapsed s).seq.rawElapsed ≥ s.cfg.payloadTimeoutMs
  · exact .inl ⟨h, by simp only [payloadTick]; exact if_pos h⟩
  · exact .inr ⟨by simpa using h, by simp only [payloadTick]; exact if_neg h⟩

/-- The response update writes RESP, RESP_LEN and DATA_VALID and nothing else (42_at_sequencer R206). -/
theorem responseUpdate_frame (s : State) : responseUpdate s = { s with
    mem := (responseUpdate s).mem
    regs := { s.regs with respLen := (responseUpdate s).regs.respLen }
    status := { s.status with dataValid := (responseUpdate s).status.dataValid } } := by
  unfold responseUpdate
  split <;> rfl

/-- A successful command finishes OK or DEVICE_NOT_READY (42_at_sequencer R199). -/
theorem commandSuccess_cases (s : State) :
    commandSuccess s = finish .ok s ∨ commandSuccess s = finish .deviceNotReady s := by
  unfold commandSuccess
  repeat' split
  all_goals simp

theorem endByTimeout_cases (s : State) :
    (s.parser.payload ≠ none ∧ endByTimeout s = endRecv .data s) ∨
    (s.parser.payload = none ∧ endByTimeout s = endRecv .timeout s) := by
  by_cases h : s.parser.payload = none
  · exact .inr ⟨h, by simp [endByTimeout, h]⟩
  · exact .inl ⟨h, by simp [endByTimeout, h]⟩

/-- A byte either leaves the receive running or ends it with OK or ERROR (42_at_sequencer R181). -/
theorem consume_cases (b : Byte) (s : State) :
    (∃ t, consume b s = (t, none) ∧ Moves s t ∧ t.seq = s.seq ∧ t.rxq = s.rxq ∧ t.cfg = s.cfg) ∨
    (∃ t o, consume b s = (t, some o) ∧ (o = .ok ∨ o = .error) ∧ Moves s t ∧ t.seq = s.seq ∧ t.rxq = s.rxq ∧
      t.cfg = s.cfg) := by
  have hm := consume_moves b s
  have hq := consume_rxq b s
  have hs : (consume b s).1.seq = s.seq := by
    unfold consume consumeByte classify
    repeat' split
    all_goals rfl
  have hc : (consume b s).1.cfg = s.cfg := by
    unfold consume consumeByte classify
    repeat' split
    all_goals rfl
  have ho : ∀ o, (consume b s).2 = some o → o = .ok ∨ o = .error := by
    intro o
    unfold consume consumeByte classify
    repeat' split
    all_goals simp_all
  cases h : consume b s with
  | mk t r =>
    rw [h] at hm hq hs hc ho
    cases r with
    | none => exact .inl ⟨t, rfl, hm, hs, hq, hc⟩
    | some o => exact .inr ⟨t, o, rfl, ho o rfl, hm, hs, hq, hc⟩

/-! ### The queued bytes of a receive that begins -/

theorem classify_setRxq (l q : List Byte) (s : State) :
    classify l (s.setRxq q) = ((classify l s).1.setRxq q, (classify l s).2) := by
  by_cases hp : s.parser.payload = none <;> simp only [classify, State.setRxq_parser, hp, if_true, if_false] <;>
    split_ifs <;> rfl

/-- Consuming a byte neither reads nor writes RXQ (42_at_sequencer R179). -/
theorem consume_setRxq (b : Byte) (q : List Byte) (s : State) :
    consume b (s.setRxq q) = ((consume b s).1.setRxq q, (consume b s).2) := by
  have h : restartCountdown (s.setRxq q) = (restartCountdown s).setRxq q := rfl
  have hl : (restartCountdown s).parser.line = s.parser.line := rfl
  by_cases hn : s.parser.line = [] <;> by_cases hm : s.parser.line.length < lineMax <;>
    simp only [consume, h, consumeByte, State.setRxq_parser, hl, hn, hm, ne_eq, not_true, not_false_iff, if_true,
      if_false] <;>
    split_ifs <;>
    first
    | rfl
    | exact classify_setRxq s.parser.line q
        ((restartCountdown s).setParser { (restartCountdown s).parser with line := [] })

/-- A run of bytes changes neither the control state nor the budget of the receive. -/
theorem consumeAll_keeps {p : List Byte} {s t : State} (h : consumeAll p s = some t) :
    t.seq = s.seq ∧ t.parser.budget = s.parser.budget := by
  induction p generalizing s with
  | nil => cases h; exact ⟨rfl, rfl⟩
  | cons b p ih =>
    have hb : (consume b s).1.parser.budget = s.parser.budget := by
      unfold consume consumeByte classify
      repeat' split
      all_goals rfl
    unfold consumeAll at h
    obtain ⟨u, e, -, hs, -⟩ | ⟨u, o, e, -, -, hs, -⟩ := consume_cases b s
    · rw [e] at h hb
      exact ⟨(ih h).1.trans hs, (ih h).2.trans hb⟩
    · rw [e] at h; cases h

/-- A queue without a terminal line is consumed whole (42_at_sequencer R178). -/
theorem drainQueue_all {q : List Byte} {s t : State} (h : consumeAll q (s.setRxq []) = some t) (hq : s.rxq = q) :
    drainQueue q s = (t, true) := by
  induction q generalizing s with
  | nil =>
    cases h
    cases s
    simp_all [drainQueue, State.setRxq]
  | cons b q ih =>
    unfold consumeAll at h
    unfold drainQueue
    rw [consume_setRxq] at h ⊢
    cases hc : consume b s with
    | mk u r =>
      rw [hc] at h
      cases r with
      | none => exact ih (s := u.setRxq q) h rfl
      | some o => simp at h

/-- The first terminal line ends the receive, and the bytes after it stay in RXQ (42_at_sequencer R178). -/
theorem drainQueue_ends {p r : List Byte} {b : Byte} {s u t : State} {o : RxOutcome}
    (h : consumeAll p (s.setRxq r) = some u) (hc : consume b u = (t, some o)) :
    drainQueue (p ++ b :: r) s = (endRecv o t, false) := by
  induction p generalizing s with
  | nil =>
    cases h
    simp [drainQueue, hc]
  | cons a p ih =>
    unfold consumeAll at h
    rw [List.cons_append]
    unfold drainQueue
    rw [consume_setRxq] at h ⊢
    cases hu : consume a s with
    | mk v x =>
      rw [hu] at h
      cases x with
      | none => exact ih (s := v.setRxq (p ++ b :: r)) h
      | some o => simp at h

/-! ### Offsets, commands, events, steps -/

/-- CMD stands at offset 0 alone (10_state R21). -/
theorem target_eq_cmd {off : Offset} : target off = .reg .cmd ↔ off = 0 := by
  constructor
  · intro h
    simp only [target] at h
    split at h
    · cases h
    · split at h
      · split at h
        · next r hr =>
          cases h
          obtain ⟨l1, l2, e, -⟩ := List.lookup_eq_some_iff.1 hr
          have hm : (off.toNat, RegName.cmd) ∈ regMap := by rw [e]; simp
          have h0 : off.toNat = 0 := by simpa [regMap] using hm
          exact BitVec.eq_of_toNat_eq h0
        · cases h
      · repeat' split at h
        all_goals cases h
  · rintro rfl
    decide

/-- Every op answers a next state. -/
theorem exec_next (i : Instr) (s : State) : ∃ t, exec i s = .next t := by
  cases i <;> exact ⟨_, rfl⟩

/-- While BUSY every op only sets CMD_REJ (10_state R22). -/
theorem exec_busy {s : State} (h : s.status.busy = true) (i : Instr) : exec i s = .next s.setCmdRej := by
  cases i <;> exact congrArg Host.Outcome.next (accept_busy h _)

theorem writeReg_sequencer (v : Word) (s : State) (r : RegName) :
    (writeReg v s r).seq = s.seq ∧ (writeReg v s r).parser = s.parser := by
  cases hb : s.status.busy <;> cases r <;>
    simp [writeReg, writeCtrl, ctrlCancel, ctrlClear, protectedWrite, hb, State.setCmdRej]
  all_goals (repeat' split) <;> exact ⟨rfl, rfl⟩

/-- A host write to another offset than CMD moves neither the sequencer nor the parser (20_memory R63). -/
theorem busWrite_sequencer (off : Offset) (v : Word) (s : State) :
    (busWrite off v s).seq = s.seq ∧ (busWrite off v s).parser = s.parser := by
  unfold busWrite
  split
  · exact writeReg_sequencer v s _
  · exact ⟨rfl, rfl⟩
  · exact ⟨rfl, rfl⟩
  · unfold protectedWrite
    split <;> exact ⟨rfl, rfl⟩
  · exact ⟨rfl, rfl⟩
  · exact ⟨rfl, rfl⟩

theorem command_cases {v : Word} {s t : State} (h : command v s = .next t) :
    (∃ i, decode v = .ok i ∧ exec i s = .next t) ∨
    (∃ e, decode v = .error e ∧ t = accept (finish .badCommand) s) := by
  unfold command at h
  split at h
  · exact .inl ⟨_, ‹_›, h⟩
  · cases h
    exact .inr ⟨_, ‹_›, rfl⟩

/-- What each event does while reset is not asserted. -/
theorem runEvent_cases {e : Event} {s t : State} (h : runEvent e s = .next t) :
    (∃ v, e = .hostWrite 0 v ∧ command v s = .next t) ∨
    (∃ off v, e = .hostWrite off v ∧ off ≠ 0 ∧ t = busWrite off v s) ∨
    (∃ off, e = .hostRead off ∧ t = busRead off s) ∨
    (e = .tick ∧ t = onTick s) ∨
    (∃ b, e = .rx b ∧ t = onRx b s) ∨
    (e = .chErr ∧ t = onChErr s) ∨
    (e = .drainDone ∧ t = onDrainDone s) ∨
    (e = .resetAssert ∧ t = { s with inReset := true }) ∨
    (e = .resetRelease ∧ t = s) := by
  cases e with
  | hostWrite off v =>
    by_cases h0 : off = 0
    · subst h0
      rw [runEvent, if_pos (target_eq_cmd.2 rfl)] at h
      exact .inl ⟨v, rfl, h⟩
    · rw [runEvent, if_neg (mt target_eq_cmd.1 h0)] at h
      cases h
      exact .inr (.inl ⟨off, v, rfl, h0, rfl⟩)
  | hostRead off => cases h; simp
  | tick => cases h; simp
  | rx b => cases h; simp
  | chErr => cases h; simp
  | drainDone => cases h; simp
  | resetAssert => cases h; simp
  | resetRelease => cases h; simp

/-- A step applies the oldest event, or changes nothing. -/
theorem step_cases {s t : State} (h : step s = .next t) :
    (s.inbox = [] ∧ t = s) ∨
    (∃ e es, s.inbox = e :: es ∧ s.inReset = true ∧ t = heldEvent e (s.setInbox es)) ∨
    (∃ e es, s.inbox = e :: es ∧ s.inReset = false ∧ runEvent e (s.setInbox es) = .next t) := by
  unfold step at h
  split at h
  · cases h
    exact .inl ⟨‹_›, rfl⟩
  · next e es he =>
    unfold applyEvent at h
    split at h
    · next hr => cases h; exact .inr (.inl ⟨e, es, he, hr, rfl⟩)
    · next hr => exact .inr (.inr ⟨e, es, he, by simpa using hr, h⟩)

/-- Every step answers a next state. -/
theorem step_next (s : State) : ∃ t, step s = .next t := by
  unfold step applyEvent
  split
  · exact ⟨_, rfl⟩
  · split
    · exact ⟨_, rfl⟩
    · next e es _ _ =>
      cases e with
      | hostWrite off v =>
        simp only [runEvent]
        split
        · unfold command
          split
          · exact exec_next _ _
          · exact ⟨_, rfl⟩
        · exact ⟨_, rfl⟩
      | hostRead off => exact ⟨_, rfl⟩
      | tick => exact ⟨_, rfl⟩
      | rx b => exact ⟨_, rfl⟩
      | chErr => exact ⟨_, rfl⟩
      | drainDone => exact ⟨_, rfl⟩
      | resetAssert => exact ⟨_, rfl⟩
      | resetRelease => exact ⟨_, rfl⟩

/-- The parameters a reset starts with are legal (00_scope R10). -/
theorem params_ok : Config.params.ok = true := by
  unfold Config.params
  split
  · assumption
  · decide

end Sys2Proof.Machine
end

