-- ==== Sys2Proof/Tests/Slice0.lean ====
section
/-! SUPPORT. Small tests (expected values from spec/95_test_vectors.md, cited as V-… or W…) and, for every statement
of Certificates/Slice0/Obligations.lean that has hypotheses, a witness that meets all of them. -/

namespace Sys2Proof.Tests

open Sys2Proof Sys2Proof.Machine

/-! ### Helpers -/

/-- The start state of 95_test_vectors section 0. -/
def base : State := State.resetWith Config.vectorDefaults

/-- `base` with other registers. -/
def withRegs (f : Regs → Regs) : State := base.setRegs (f base.regs)

/-- A state with a text in TXT, its length in TXT_LEN. -/
def withText (text : List Byte) (s : State) : State :=
  (s.setMem (s.mem.write txtBase text)).setRegs { s.regs with txtLen := BitVec.ofNat 32 text.length }

/-- A state with an op running. -/
def running (op : RunningOp) (k : Kind) (st : SeqState) (f : Seq → Seq) (s : State) : State :=
  (s.setStatus { s.status with busy := true }).setSeq (f { s.seq with op := op, kind := k, st := st })

/-- A state with an attempt count. -/
def attempt (n : BitVec 8) (s : State) : State := s.setStatus { s.status with attempts := n }

/-- What `f` sees of a next state. -/
def look {α : Type} (f : State → α) : Host.Outcome State Fault Refusal → Option α
  | .next t => some (f t)
  | .fault _ => none
  | .refused _ => none

/-- What `f` sees after the next event `e`. -/
def onEvent {α : Type} (e : Event) (f : State → α) (s : State) : Option α := look f (step (s.setInbox [e]))

/-- "HELLO" -/
def hello : List Byte := [0x48, 0x45, 0x4C, 0x4C, 0x4F]

/-- The fourteen words that 30_encoding R94 gives. -/
def fourteenWords : List Word :=
  [0x00, 0x01, 0x02, 0x03, 0x04, 0x05, 0x10, 0x11, 0x20, 0x21, 0x121, 0x221, 0x321, 0x22]

/-! ### WellFormed and Decode -/

/-- R83: FLAGS[3:2] "must be 0": the check refuses each of the two bits. -/
theorem test_illFormed_refused :
    WellFormed (.atExec 0b0100) = false ∧ WellFormed (.atExec 0b1000) = false ∧ WellFormed (.atExec 0b0011) = true := by
  decide

/-- R81, R82: words written out field by field, RSVD, FLAGS, OPCODE. -/
theorem test_decode_nop : decode 0b00000000000000000000000000000000 = .ok .nop := by decide
theorem test_decode_cwCrc : decode 0b00000000000000000000000000000001 = .ok .cwCrc := by decide
theorem test_decode_cwParity : decode 0b00000000000000000000000000000010 = .ok .cwParity := by decide
theorem test_decode_cwEncode : decode 0b00000000000000000000000000000011 = .ok .cwEncode := by decide
theorem test_decode_cwAddr : decode 0b00000000000000000000000000000100 = .ok .cwAddr := by decide
theorem test_decode_cwCheck : decode 0b00000000000000000000000000000101 = .ok .cwCheck := by decide
theorem test_decode_frText : decode 0b00000000000000000000000000010000 = .ok .frText := by decide
theorem test_decode_frFrame : decode 0b00000000000000000000000000010001 = .ok .frFrame := by decide
theorem test_decode_atProbe : decode 0b00000000000000000000000000100000 = .ok .atProbe := by decide
theorem test_decode_atExec_noprobe : decode 0b00000000000000000000000100100001 = .ok (.atExec 1) := by decide
theorem test_decode_atExec_mark : decode 0b00000000000000000000001000100001 = .ok (.atExec 2) := by decide
theorem test_decode_atRaw : decode 0b00000000000000000000000000100010 = .ok .atRaw := by decide

/-- R84: one refused word for each check, at the lowest bit or code it looks at. -/
theorem test_decode_refusals :
    decode 0x00001000 = .error .rsvdNotZero ∧ decode 0x00000006 = .error .unknownOpcode ∧
      decode 0x00000101 = .error .flagsNotAllowed ∧ decode 0x00000421 = .error .execFlagsReserved := by decide

/-! ### The cw unit -/

theorem test_nop_status : look (fun t => t.status.word) (exec .nop base) = some 0x00000002 := by decide +kernel
/-- V-CW-2 -/
theorem test_cwCrc_one :
    look (fun t => (t.regs.res0, t.regs.res1)) (exec .cwCrc (withRegs fun r => { r with arg0 := 1, res1 := 9 }))
      = some (0x369, 0) := by decide +kernel
/-- V-CW-4: bits 31:21 are not read. -/
theorem test_cwCrc_masked :
    look (fun t => t.regs.res0) (exec .cwCrc (withRegs fun r => { r with arg0 := 0xFFE00001 })) = some 0x369 :=
  by decide +kernel
/-- V-CW-6 -/
theorem test_cwParity_odd :
    look (fun t => t.regs.res0) (exec .cwParity (withRegs fun r => { r with arg0 := 0x7FFFFFFF })) = some 1 :=
  by decide +kernel
/-- V-CW-7: bit 31 is not covered. -/
theorem test_cwParity_bit31 :
    look (fun t => t.regs.res0) (exec .cwParity (withRegs fun r => { r with arg0 := 0x80000000 })) = some 0 :=
  by decide +kernel
/-- V-CW-11f: the body of SYNC. -/
theorem test_cwEncode_sync :
    look (fun t => t.regs.res0) (exec .cwEncode (withRegs fun r => { r with arg0 := 0x000F9A42 }))
      = some 0x7CD215D8 := by decide +kernel
/-- V-CW-11 -/
theorem test_cwEncode_flag :
    look (fun t => t.regs.res0) (exec .cwEncode (withRegs fun r => { r with arg0 := 0x00100000 }))
      = some 0x80000769 := by decide +kernel
/-- V-CW-15 -/
theorem test_cwAddr_alphanumeric :
    look (fun t => (t.regs.res0, t.regs.res1))
      (exec .cwAddr (withRegs fun r => { r with arg0 := 0x0012D687, arg1 := 3 })) = some (0x4B5A1A25, 0x00096B43) :=
  by decide +kernel
/-- V-CW-18c: ARG0 bit 21 is not read. -/
theorem test_cwAddr_masked :
    look (fun t => (t.regs.res0, t.regs.res1))
      (exec .cwAddr (withRegs fun r => { r with arg0 := 0x00200005, arg1 := 1 })) = some (0xED3, 1) :=
  by decide +kernel
/-- V-CW-24 -/
theorem test_cwCheck_accepts :
    look (fun t => (t.regs.res0, t.regs.res1)) (exec .cwCheck (withRegs fun r => { r with arg0 := 0x4B5A1A25 }))
      = some (1, 0) := by decide +kernel
/-- V-CW-30: a CRC mismatch with even parity. -/
theorem test_cwCheck_crcOnly :
    look (fun t => (t.regs.res0, t.regs.res1)) (exec .cwCheck (withRegs fun r => { r with arg0 := 0xAAAAAAAA }))
      = some (0, 2) := by decide +kernel

/-! ### The fr unit -/

/-- V-FR-42 -/
theorem test_frText_crosses_batch :
    look (fun t => (outWords t 3, t.regs.outLen, t.regs.frTextwords))
      (exec .frText (withText hello (withRegs fun r => { r with frCfg := 3, arg0 := 15 })))
      = some ([0x89A2634D, 0x7CD215D8, 0xCCF905DE], 3, 3) := by decide +kernel
/-- V-FR-43 -/
theorem test_frText_numeric :
    look (fun t => (outWords t 1, t.regs.outLen))
      (exec .frText (withText [0x31, 0x32, 0x33, 0x34, 0x35] (withRegs fun r => { r with frCfg := 1 })))
      = some ([0xC261572C], 1) := by decide +kernel
/-- V-FR-1, W8 -/
theorem test_frFrame_hello :
    look (fun t => (outWords t 34, t.regs.outLen, t.regs.frTextwords))
      (exec .frFrame
        (withText hello (withRegs fun r => { r with frCfg := 3, frAddr := 0x0012D687, frRepeat := 1 })))
      = some (0x7CD215D8 :: List.replicate 14 0x7A89C197 ++ [0x4B5A1A25, 0x89A2634D, 0x7CD215D8, 0xCCF905DE]
          ++ List.replicate 15 0x7A89C197, 34, 3) := by decide +kernel
/-- V-FR-54: over TXT_MAX. -/
theorem test_frFrame_refused :
    look (fun t => (t.status.word, t.regs.outLen))
      (exec .frFrame (withText hello (withRegs fun r => { r with frCfg := 3, txtMax := 4, outLen := 7 })))
      = some (0x00000052, 0) := by decide +kernel
/-- The BCD fields of section 3 with P_BCD_BIT_ORDER = MSB_FIRST: "12A 4". -/
theorem test_bcd_msbFirst :
    bcdFields { Config.vectorDefaults with bcdBitOrder := .msbFirst } [0x31, 0x32, 0x41, 0x20, 0x34] = [0x12FC4] :=
  by decide +kernel

/-! ### The at unit -/

/-- V-AT-1's probe: R195, R190. -/
theorem test_atProbe_output :
    look (fun t => (t.trace, t.status.word, t.seq.word)) (exec .atProbe base)
      = some ([.flush, .tx 0x41, .tx 0x54, .tx 0x0D, .tx 0x0A, .drainReq], 0x01000001, 0x11) := by decide +kernel
/-- V-AT-1's first row: the readiness probe goes first. -/
theorem test_atExec_probes :
    look (fun t => (t.status.word, t.seq.word)) (exec (.atExec 0) (withRegs fun r => { r with atCmdlen := 1 }))
      = some (0x00000001, 0x21) := by decide +kernel
/-- V-AT-2's first row: NOPROBE starts the command at once. -/
theorem test_atExec_noprobe :
    look (fun t => (t.trace, t.status.word, t.seq.word))
      (exec (.atExec 1) ((withRegs fun r => { r with atCmdlen := 2 }).setMem [(0x1400, 0x41), (0x1401, 0x0A)]))
      = some ([.flush, .tx 0x41, .tx 0x0A, .drainReq], 0x01000001, 0x31) := by decide +kernel
/-- R209, R210: the first chunk, most significant byte first. -/
theorem test_atRaw_chunk :
    look (fun t => (t.trace, t.status.word, t.seq.word))
      (exec .atRaw ((withRegs fun r => { r with outLen := 1 }).setMem (Memory.writeWord [] 0x2000 0x7CD215D8)))
      = some ([.tx 0x7C, .tx 0xD2, .tx 0x15, .tx 0xD8, .drainReq], 0x00000001, 0x55) := by decide +kernel
/-- R209: an empty OUT is refused. -/
theorem test_atRaw_empty : look (fun t => t.status.word) (exec .atRaw base) = some 0x00000072 := by decide +kernel

/-- V-PA-2's last byte: the retained payload is in RESP, big-endian order of its bytes kept. -/
theorem test_rx_ends_command :
    onEvent (.rx 0x0A) (fun t => (t.status.word, t.regs.respLen, t.mem.readBytes 0x1600 2, t.seq.word))
      ((attempt 1 (running .exec .cmd .xRecv (fun q => { q with maxAtt := 1, tmo := 100 }) base)).setParser
        ⟨[0x4F, 0x4B], some [0x2B, 0x41], 100, 100, 0, 0⟩)
      = some (0x0100010A, 2, [0x2B, 0x41], 0) := by decide +kernel
/-- V-AT-2 at NOW = 2: ERROR with attempts left backs off for 5 ticks. -/
theorem test_rx_error_backs_off :
    onEvent (.rx 0x0A) (fun t => (t.status.word, t.seq.word, t.seq.waitLeft))
      ((attempt 1 (running .exec .cmd .xRecv (fun q => { q with maxAtt := 3, tmo := 100 }) base)).setParser
        ⟨errorLine, none, 100, 100, 0, 0⟩)
      = some (0x01000201, 0x34, 5) := by decide +kernel

/-! ### Witnesses: states -/

theorem base_idle : Idle base := by decide +kernel

/-- An AT_EXEC in its CMD exchange, with `n` attempts made of at most `m`. -/
def inCommand (st : SeqState) (n m : BitVec 8) (wait : Word) : State :=
  attempt n (running .exec .cmd st (fun q => { q with maxAtt := m, tmo := 100, waitLeft := wait })
    (withRegs fun r => { r with atCmdlen := 2, atRetries := m }))

/-- An AT_PROBE receiving with `left` ticks to go. -/
def inProbe (left : Word) : State :=
  (attempt 1 (running .probe .soloProbe .xRecv id base)).setParser ⟨[], none, 20, left, 0, 0⟩

/-- An AT_RAW of one word, in one of its states. -/
def inRaw (st : SeqState) (pos cur wait elapsed : Word) (sent : Nat) : State :=
  ((running .raw .raw st
    (fun q => { q with tmo := 100, rawN := 4, rawPos := pos, rawCur := cur, waitLeft := wait, rawElapsed := elapsed })
    (withRegs fun r => { r with outLen := 1, rawProgress := pos })).setMem
      (Memory.writeWord [] 0x2000 0x7CD215D8)).setTrace
      (([.tx 0x7C, .tx 0xD2, .tx 0x15, .tx 0xD8] : List OutEvent).take sent ++ [.drainReq])


/-- The same states reached by hand are good ones (`Safe` has ten parts, each decided). -/
theorem safe_inCommand_recv : Safe ((inCommand .xRecv 1 3 0).setParser ⟨[0x4F, 0x4B], none, 100, 1, 9, 0⟩) := by
  refine ⟨?_, ?_, ?_, ?_, ?_, ?_, ?_, ?_, ?_, ?_⟩ <;> decide +kernel
theorem safe_inCommand_backoff : Safe (inCommand .backoff 2 3 1) := by
  refine ⟨?_, ?_, ?_, ?_, ?_, ?_, ?_, ?_, ?_, ?_⟩ <;> decide +kernel
theorem safe_inRaw_drain : Safe (inRaw .rawDrain 0 4 0 999 4) := by
  refine ⟨?_, ?_, ?_, ?_, ?_, ?_, ?_, ?_, ?_, ?_⟩ <;> decide +kernel
theorem safe_inRaw_pace : Safe (inRaw .rawPace 2 2 1 0 2) := by
  refine ⟨?_, ?_, ?_, ?_, ?_, ?_, ?_, ?_, ?_, ?_⟩ <;> decide +kernel
theorem safe_inRaw_settle : Safe (inRaw .rawSettle 4 4 1 0 4) := by
  refine ⟨?_, ?_, ?_, ?_, ?_, ?_, ?_, ?_, ?_, ?_⟩ <;> decide +kernel

/-! ### Witnesses: commands -/

/-- CommandChecksDecide: each refusal at the smallest value that meets it, and words that pass all four. -/
theorem witness_CommandChecksDecide :
    Idle base ∧ (0x00001000 : Word).extractLsb' 12 20 ≠ 0 ∧
    (0x00000006 : Word).extractLsb' 0 8 ∉
      ([0x00, 0x01, 0x02, 0x03, 0x04, 0x05, 0x10, 0x11, 0x20, 0x21, 0x22] : List (BitVec 8)) ∧
    ((0x00000100 : Word).extractLsb' 0 8 ≠ 0x21 ∧ (0x00000100 : Word).extractLsb' 8 4 ≠ 0) ∧
    ((0x00000421 : Word).extractLsb' 0 8 = 0x21 ∧ (0x00000421 : Word).extractLsb' 10 2 ≠ 0) ∧
    ((0x00000321 : Word).extractLsb' 12 20 = 0 ∧ (0x00000321 : Word).extractLsb' 0 8 = 0x21 ∧
      (0x00000321 : Word).extractLsb' 10 2 = 0) := by decide +kernel
theorem witness_CmdWriteAcceptedOnlyWhenIdle :
    base.status.busy = false ∧ (inProbe 1).status.busy = true := by decide +kernel
/-- StepRunsDecodedOp: a word that decodes, and one that does not. -/
theorem witness_StepRunsDecodedOp :
    (base.setInbox [.hostWrite 0x000 0x00000121]).inReset = false ∧
    (base.setInbox [.hostWrite 0x000 0x00000121]).inbox = .hostWrite 0x000 0x00000121 :: [] ∧
    decode 0x00000121 = .ok (.atExec 1) ∧
    (base.setInbox [.hostWrite 0x000 0x00000421]).inbox = .hostWrite 0x000 0x00000421 :: [] ∧
    decode 0x00000421 = .error .execFlagsReserved := by decide +kernel

/-! ### Witnesses: the atomic ops -/

/-- Every statement of an op's result has the hypothesis `Idle s`; `OtherWordsRefused` has two more, met here for each
opcode that has refused words with its lowest flag set. -/
theorem witness_OtherWordsRefused :
    ([0x00000100, 0x00000101, 0x00000102, 0x00000103, 0x00000104, 0x00000105, 0x00000110, 0x00000111, 0x00000120,
      0x00000421, 0x00000122] : List Word).map (fun v => (opcodeField v, decide (v ∈ fourteenWords)))
      = [(0x00, false), (0x01, false), (0x02, false), (0x03, false), (0x04, false), (0x05, false), (0x10, false),
        (0x11, false), (0x20, false), (0x21, false), (0x22, false)] := by decide +kernel
theorem witness_NopOnlyCompletes : Idle base := by decide +kernel
theorem witness_CwCrcResult : Idle (withRegs fun r => { r with arg0 := 0x001FFFFF }) := by decide +kernel
theorem witness_CwParityResult : Idle (withRegs fun r => { r with arg0 := 0x7FFFFFFF }) := by decide +kernel
theorem witness_CwEncodeResult : Idle (withRegs fun r => { r with arg0 := 0x00100000 }) := by decide +kernel
theorem witness_CwAddrResult : Idle (withRegs fun r => { r with arg0 := 0x0012D687, arg1 := 3 }) := by decide +kernel
theorem witness_CwCheckResult : Idle (withRegs fun r => { r with arg0 := 0x7CD215D8 }) := by decide +kernel
/-- CwCheckAcceptsExactlyCodewords, second clause: the highest bit of a codeword flipped, and the lowest. -/
theorem witness_CwCheckAcceptsExactlyCodewords :
    (Idle (withRegs fun r => { r with arg0 := 0xFCD215D8 }) ∧ (31 : Nat) < 32 ∧
      (0xFCD215D8 : Word) = cw 0x0F9A42 ^^^ (1 <<< 31)) ∧
    (Idle (withRegs fun r => { r with arg0 := 0x7CD215D9 }) ∧ (0 : Nat) < 32 ∧
      (0x7CD215D9 : Word) = cw 0x0F9A42 ^^^ (1 <<< 0)) := by decide +kernel
/-- AlphaFieldBits: HELLO has two fields; the last bit of the last one is padding. -/
theorem witness_AlphaFieldBits : (1 : Nat) < (7 * hello.length + 19) / 20 ∧ (19 : Nat) < 20 := by decide +kernel
/-- BcdFieldCodes: "123" has one field; the last code of it is a pad; the bytes beside the digits, one of them defined by
a configuration and one by none. -/
theorem witness_BcdFieldCodes :
    ((0 : Nat) < (([0x31, 0x32, 0x33] : List Byte).length + 4) / 5 ∧ (4 : Nat) < 5 ∧ (3 : Nat) < 4) ∧
    ((0 : Nat) < 10 ∧ (9 : Nat) < 10) ∧
    (((0x2F : Byte) < 0x30 ∧ (0x2F : Byte) ≠ 0x20) ∧ ((0x39 : Byte) < 0x3A ∧ (0x3A : Byte) ≠ 0x20)) ∧
    ([((0x2F : Byte), (0xD : BitVec 4))] : List (Byte × BitVec 4)).lookup 0x2F = some 0xD ∧
    (∀ e ∈ ([((0x2F : Byte), (0xD : BitVec 4))] : List (Byte × BitVec 4)), e.1 ≠ 0x3A) := by
  refine ⟨?_, ?_, ?_, rfl, by simp⟩ <;> decide +kernel
/-- EncodeTextPlacesSync: slot 15 is the last legal position; HELLO's first field fills it. -/
theorem witness_EncodeTextPlacesSync :
    (15 : Nat) ≤ 15 ∧ (dataFields Config.vectorDefaults 3 false hello)[0]? = some 0x1344C ∧ (15 + 0 + 1) % 16 = 0 := by
  decide +kernel
/-- TransmissionStructure, TransmissionSlots: functions 0, 1 and 3, and the hypotheses of the clauses on positions. -/
theorem witness_Transmission :
    ((0 : BitVec 2) ≠ 2 ∧ (1 : BitVec 2) ≠ 2 ∧ (3 : BitVec 2) ≠ 2) ∧
    (0 + 17 * 1 < (encodeTransmission Config.vectorDefaults 1 0x12D687 3 hello false).1.length) ∧
    ((0 : Nat) ≤ 18 ∧ (18 - 0) % 17 ≠ 0 ∧
      (encodeTransmission Config.vectorDefaults 1 0x12D687 3 hello false).1[18]? = some 0xCCF905DE) ∧
    (1 : Word) ≠ 0 := by decide +kernel
theorem witness_LongestOutputs :
    (List.replicate 1024 (0x41 : Byte)).length = txtCap ∧ (15 : Nat) ≤ 15 ∧ (7 : Body).toNat % 8 = 7 := by
  refine ⟨List.length_replicate, ?_, ?_⟩ <;> decide +kernel
/-- FrFrameResult: each refusal at its boundary, and the accepted boundary TXT_LEN = TXT_MAX = 1024 (V-FR-50 to 55). -/
theorem witness_FrFrameResult :
    (Idle (withRegs fun r => { r with frAddr := 0x00200000 }) ∧ (0x00200000 : Word).extractLsb' 21 11 ≠ 0) ∧
    (Idle (withRegs fun r => { r with frCfg := 6 }) ∧ (6 : BitVec 3).extractLsb' 0 2 = 2) ∧
    (Idle (withRegs fun r => { r with txtLen := 1025, txtMax := 2000 }) ∧ (1025 : Word).toNat > 1024) ∧
    (Idle (withRegs fun r => { r with txtLen := 5, txtMax := 4 }) ∧ (5 : Word) > 4) ∧
    (Idle (withRegs fun r => { r with txtLen := 1024, frAddr := 0x001FFFFF, frCfg := 7 }) ∧
      (0x001FFFFF : Word).extractLsb' 21 11 = 0 ∧ (7 : BitVec 3).extractLsb' 0 2 ≠ 2 ∧ (1024 : Word).toNat ≤ 1024 ∧
      (1024 : Word) ≤ 1024) := by
  refine ⟨?_, ?_, ?_, ?_, ?_⟩ <;> decide +kernel
/-- FrTextResult: ARG0 = 16 is refused and 15 accepted; a text refusal with ARG0 = 15. -/
theorem witness_FrTextResult :
    (Idle (withRegs fun r => { r with arg0 := 16 }) ∧ (16 : Word).toNat > 15) ∧
    (Idle (withRegs fun r => { r with arg0 := 15, frCfg := 2 }) ∧ (15 : Word).toNat ≤ 15 ∧
      (2 : BitVec 3).extractLsb' 0 2 = 2) ∧
    (Idle (withRegs fun r => { r with arg0 := 15, frCfg := 3, txtLen := 5, txtMax := 5 }) ∧ (15 : Word).toNat ≤ 15 ∧
      (3 : BitVec 3).extractLsb' 0 2 ≠ 2 ∧ (5 : Word).toNat ≤ 1024 ∧ (5 : Word) ≤ 5) := by decide +kernel
/-- FramerReadsOnlyItsInputs: two states that differ in ARG0, NOW and OUT. -/
theorem witness_FramerReadsOnlyItsInputs :
    ∃ s₁ s₂ t₁ t₂ : State, Idle s₁ ∧ Idle s₂ ∧ s₁.cfg = s₂.cfg ∧ s₁.regs.frRepeat = s₂.regs.frRepeat ∧
      s₁.regs.frAddr.extractLsb' 0 21 = s₂.regs.frAddr.extractLsb' 0 21 ∧ s₁.regs.frCfg = s₂.regs.frCfg ∧
      textOperand s₁ = textOperand s₂ ∧ exec .frFrame s₁ = .next t₁ ∧ exec .frFrame s₂ = .next t₂ ∧
      t₁.status.result = .ok ∧ t₂.status.result = .ok ∧ s₁ ≠ s₂ :=
  ⟨withText hello (withRegs fun r => { r with frCfg := 3 }),
    withText hello ((withRegs fun r => { r with frCfg := 3, arg0 := 1, now := 9 }).setMem [(0x2000, 1)]), _, _,
    by decide +kernel, by decide +kernel, by decide +kernel, by decide +kernel, by decide +kernel, by decide +kernel,
    by decide +kernel, rfl, rfl, by decide +kernel, by decide +kernel, by decide +kernel⟩
theorem witness_PayloadIsBigEndian : (3 : Nat) < 4 := by decide +kernel

/-! ### Witnesses: the at unit -/

theorem witness_AtProbeStarts : Idle base := by decide +kernel
/-- AtExecStarts: each bad argument at its boundary, then the three ways to go on. -/
theorem witness_AtExecStarts :
    (Idle (withRegs fun r => { r with atCmdlen := 0 }) ∧ (0 : BitVec 4).extractLsb' 2 2 = 0) ∧
    (Idle (withRegs fun r => { r with atCmdlen := 257 }) ∧ (257 : Word).toNat > 256) ∧
    (Idle (withRegs fun r => { r with atCmdlen := 1, atRetries := 0 })) ∧
    (Idle (withRegs fun r => { r with atCmdlen := 1, atMarklen := 65 }) ∧ (3 : BitVec 4).getLsbD 1 = true ∧
      (65 : Word).toNat > 64) ∧
    (Idle (withRegs fun r => { r with atCmdlen := 256, atMarklen := 64 }) ∧ base.regs.atRetries ≠ 0 ∧
      (2 : BitVec 4).getLsbD 0 = false ∧ base.status.aliveValid = false) ∧
    (Idle ((withRegs fun r => { r with atCmdlen := 1, now := 1001 }).setStatus
        { Status.reset with aliveValid := true }) ∧ ((1001 : Word) - 0).toNat > base.cfg.freshMs.toNat) ∧
    (Idle ((withRegs fun r => { r with atCmdlen := 1, now := 1000 }).setStatus
        { Status.reset with aliveValid := true }) ∧ ((1000 : Word) - 0).toNat ≤ base.cfg.freshMs.toNat) ∧
    (1 : BitVec 4).getLsbD 0 = true := by
  refine ⟨?_, ?_, ?_, ?_, ?_, ?_, ?_, ?_⟩ <;> decide +kernel
/-- AtRawStarts: an empty OUT, and a full one. -/
theorem witness_AtRawStarts :
    (Idle base ∧ base.regs.outLen = 0) ∧
    (Idle (withRegs fun r => { r with outLen := 512 }) ∧ (512 : Word) ≠ 0 ∧ (512 : Word).toNat ≤ 512) := by
  decide +kernel
/-- SilentReceiveTimesOut, second part: a tick that goes on, the last one, and one that completes the last empty poll. -/
theorem witness_SilentReceiveTimesOut_tick :
    (((inProbe 2).setInbox [.tick]).inbox = .tick :: [] ∧ (inProbe 2).inReset = false ∧ (inProbe 2).seq.st = .xRecv ∧
      (inProbe 2).parser.remaining ≠ 0 ∧ (inProbe 2).parser.remaining ≠ 1 ∧ base.cfg.maxEmptyPolls = 0) ∧
    ((inProbe 1).parser.remaining = 1) ∧
    (let c := { (inProbe 5).setParser ⟨[], none, 20, 5, 9, 0⟩ with cfg := { base.cfg with maxEmptyPolls := 1 } };
      c.parser.pollTicks + 1 = c.cfg.pollMs ∧ c.cfg.maxEmptyPolls ≠ 0 ∧
        c.cfg.maxEmptyPolls ≤ c.parser.emptyPolls + 1) := by decide +kernel
theorem witness_SilentReceiveTimesOut :
    let s := (inProbe 2).setInbox [.tick, .tick, .chErr]
    CtrlInv s ∧ s.inReset = false ∧ s.seq.kind = .soloProbe ∧ s.seq.st = .xRecv ∧ s.cfg.maxEmptyPolls = 0 ∧
      s.parser.payload = none ∧ s.parser.remaining ≠ 0 ∧
      s.inbox = List.replicate s.parser.remaining.toNat .tick ++ [.chErr] := by decide +kernel
/-- ConsumeClassifiesLines: a full line, a line one byte short of it, and the bytes at the edges of the printable range. -/
theorem witness_ConsumeClassifiesLines :
    ((0x20 : Byte) ≤ 0x7E ∧ (0x7E : Byte) ≤ 0x7E ∧ (List.replicate 255 (0x41 : Byte)).length < 256 ∧
      256 ≤ (List.replicate 256 (0x41 : Byte)).length) ∧
    ((0x1F : Byte) ≠ 0x0D ∧ (0x1F : Byte) ≠ 0x0A ∧ ¬((0x20 : Byte) ≤ 0x1F ∧ (0x1F : Byte) ≤ 0x7E)) ∧
    ((0x7F : Byte) ≠ 0x0D ∧ (0x7F : Byte) ≠ 0x0A ∧ ¬((0x20 : Byte) ≤ 0x7F ∧ (0x7F : Byte) ≤ 0x7E)) := by decide +kernel
/-- ReceiveEndFillsResp: a CMD exchange with the longest payload, one without, and AT_RAW's receive. -/
theorem witness_ReceiveEndFillsResp :
    (∃ s t : State, s.seq.kind = .cmd ∧ t = endExchange .data s ∧
      s.parser.payload = some (List.replicate 256 0x2B) ∧ (List.replicate 256 (0x2B : Byte)).length ≤ 256) ∧
    (∃ s t : State, s.seq.kind = .cmd ∧ t = endExchange .error s ∧ s.parser.payload = none) ∧
    (∃ s t : State, t = endRaw .data s ∧ s.seq.st = .rawRecv ∧
      (RxOutcome.data, OutcomeCode.data, Result.ok) ∈
        ([(.ok, .ok, .ok), (.data, .data, .ok)] : List (RxOutcome × OutcomeCode × Result))) :=
  ⟨⟨(inCommand .xRecv 1 3 0).setParser ⟨[], some (List.replicate 256 0x2B), 100, 1, 0, 0⟩, _, rfl, rfl, rfl,
      by rw [List.length_replicate]⟩, ⟨inCommand .xRecv 1 3 0, _, rfl, rfl, rfl⟩, ⟨inRaw .rawRecv 4 4 0 0 4, _, rfl, rfl, by decide⟩⟩
/-- RxAndDrainDoneByState: a byte that leaves a receive running and one that ends it; a receive that begins with a queue
without a terminal line, and with bytes after one. -/
theorem witness_RxAndDrainDoneByState_receives :
    let r := (inCommand .xRecv 1 3 0).setParser ⟨[0x4F, 0x4B], none, 100, 100, 0, 0⟩
    let q := (inCommand .xSettle 1 3 1).setRxq [0x4F, 0x4B, 0x0A, 0x2B]
    let u := (openRecv q).setRxq [0x2B]
    (r.seq.st = .xRecv ∧ (consume 0x0D r).2 = none ∧ (consume 0x0A r).2 = some .ok) ∧
    (q.seq.kind = .cmd ∧ q.rxq = [0x4F, 0x4B] ++ 0x0A :: [0x2B]) ∧
    (∃ v, consumeAll [0x4F, 0x4B] u = some v ∧ (consume 0x0A v).2 = some .ok) ∧
    (∃ v, consumeAll [0x4F, 0x4B] ((openRecv q).setRxq []) = some v) ∧
    ((inProbe 1).seq.kind = .soloProbe ∧ (inProbe 1).rxq = []) ∧ (inRaw .rawSettle 4 4 1 0 4).seq.kind = .raw :=
  ⟨by decide +kernel, by decide +kernel, ⟨_, rfl, by decide +kernel⟩, ⟨_, rfl⟩, by decide +kernel, by decide +kernel⟩
/-- RxAndDrainDoneByState: a queue with room for one byte and a full one; each DrainDone clause, with waits of 0 too. -/
theorem witness_RxAndDrainDoneByState :
    (let z := { inCommand .xDrain 1 3 0 with cfg := { base.cfg with settleMs := 0, paceMs := 0, rawSettleMs := 0 } };
      z.seq.st = .xDrain ∧ z.inReset = false ∧ z.cfg.settleMs = 0 ∧ z.cfg.paceMs = 0 ∧ z.cfg.rawSettleMs = 0) ∧
    (base.rxq.length < base.cfg.rxqCap ∧ base.seq.st = .idle ∧ base.inReset = false ∧
      ({ base with cfg := { base.cfg with rxqCap := 0 } } : State).cfg.rxqCap ≤ base.rxq.length) ∧
    ((inCommand .xSettle 1 3 1).seq.st = .xSettle) ∧
    ((inCommand .xDrain 1 3 0).seq.st = .xDrain ∧ base.cfg.settleMs ≠ 0) ∧
    ((inRaw .rawDrain 0 2 0 0 2).seq.st = .rawDrain ∧
      ((0 : Word) + 2 ≠ (inRaw .rawDrain 0 2 0 0 2).seq.rawN ∧ base.cfg.paceMs ≠ 0) ∧
      ((2 : Word) + 2 = (inRaw .rawDrain 2 2 0 0 4).seq.rawN ∧ base.cfg.rawSettleMs ≠ 0)) := by decide +kernel
/-- CommandSuccessChecksMarker: V-AT-5's marker found, V-AT-6's missing, no mark asked for and AT_MARKLEN over 64. -/
theorem witness_CommandSuccessChecksMarker :
    let s := ((running .exec .cmd .xRecv (fun q => { q with mark := true })
      (withRegs fun r => { r with atMarklen := 1 })).setMem [(0x1500, 0x52)])
    let found := s.setParser ⟨[], some [0x2B, 0x52], 100, 1, 0, 0⟩
    (found.seq.kind = .cmd ∧ found.seq.mark = true ∧ found.regs.atMarklen.toNat ≤ 64 ∧
      found.parser.payload = some [0x2B, 0x52] ∧ found.mem.readBytes 0x1500 1 <:+: [0x2B, 0x52]) ∧
    (s.seq.kind = .cmd ∧ s.seq.mark = true ∧ s.parser.payload = none) ∧
    (let n := (inCommand .xRecv 1 3 0).setRegs { (inCommand .xRecv 1 3 0).regs with atMarklen := 65 };
      n.seq.kind = .cmd ∧ n.seq.mark = false ∧ 64 < n.regs.atMarklen.toNat) := by
  decide +kernel
/-- CommandFailureBacksOff: a backoff, a backoff of no ticks, the last attempt. -/
theorem witness_CommandFailureBacksOff :
    let s := inCommand .xRecv 1 3 0
    let z := { s with cfg := { s.cfg with errBackoffMs := 0 } }
    let e := inCommand .xRecv 3 3 0
    (s.seq.kind = .cmd ∧ s.status.attempts < s.seq.maxAtt ∧ s.cfg.errBackoffMs ≠ 0 ∧ s.cfg.invBackoffMs ≠ 0) ∧
    (z.seq.kind = .cmd ∧ z.status.attempts < z.seq.maxAtt ∧ z.cfg.errBackoffMs = 0 ∧ z.status.cancelPend = false ∧
      z.regs.atCmdlen.toNat ≤ 256) ∧
    (e.seq.kind = .cmd ∧ ¬ e.status.attempts < e.seq.maxAtt) := by decide +kernel
/-- CommandFailureBacksOff, CommandTimeoutProbes, ProbeOutcomeDecides: the clauses on a pending cancel. -/
theorem witness_cancelAtExchangeEnd :
    let cancelling := fun s : State => s.setStatus { s.status with cancelPend := true }
    let c := cancelling (inCommand .xRecv 1 3 0)
    let z := { c with cfg := { c.cfg with errBackoffMs := 0 } }
    let r := cancelling (running .exec .retryProbe .xRecv (fun q => { q with maxAtt := 3 }) base)
    let p := cancelling (running .exec .readyProbe .xRecv id base)
    (c.seq.kind = .cmd ∧ c.status.attempts < c.seq.maxAtt ∧ c.status.cancelPend = true) ∧
    (z.seq.kind = .cmd ∧ z.status.attempts < z.seq.maxAtt ∧ z.cfg.errBackoffMs = 0 ∧ z.status.cancelPend = true) ∧
    (r.seq.kind = .retryProbe ∧ r.status.cancelPend = true) ∧
    (p.seq.kind = .readyProbe ∧ p.status.cancelPend = true) := by decide +kernel
theorem witness_CommandTimeoutProbes :
    let r := running .exec .retryProbe .xRecv (fun q => { q with maxAtt := 3 }) base
    ((inCommand .xRecv 2 3 0).seq.kind = .cmd ∧ (2 : BitVec 8) < 3 ∧
      (inCommand .xRecv 2 3 0).status.cancelPend = false) ∧
    ((inCommand .xRecv 3 3 0).seq.kind = .cmd ∧ ¬ (3 : BitVec 8) < 3) ∧
    (r.seq.kind = .retryProbe ∧ r.status.cancelPend = false) := by decide +kernel
theorem witness_ProbeOutcomeDecides :
    let r := running .exec .readyProbe .xRecv id base
    (inProbe 1).seq.kind = .soloProbe ∧ (r.seq.kind = .readyProbe ∧ RxOutcome.data ≠ .ok) ∧
      r.status.cancelPend = false := by decide +kernel
theorem witness_ChannelErrorOutsideReceives :
    let s := (inRaw .rawPace 2 2 1 0 2).setInbox [.chErr]
    let i := (inCommand .backoff 1 3 1).setInbox [.chErr]
    let x := (inCommand .xSettle 1 3 1).setInbox [.chErr]
    let r := (inRaw .rawRecv 4 4 0 0 4).setInbox [.chErr]
    (x.inReset = false ∧ x.inbox = .chErr :: [] ∧ x.seq.st = .xSettle) ∧
    (r.inReset = false ∧ r.inbox = .chErr :: [] ∧ r.seq.st = .rawRecv) ∧
    (s.inReset = false ∧ s.inbox = .chErr :: [] ∧ s.seq.st = .rawPace) ∧
    (i.inReset = false ∧ i.inbox = .chErr :: [] ∧ i.seq.st = .backoff) := by decide +kernel
/-- PendingCancelSilencesOutput, third part: no cancellation pending, and a second chunk of a payload (bytes 2 and 3 of the
word 0x7CD215D8) after the first. -/
theorem witness_PendingCancelSilencesOutput_boundaries :
    let s := inRaw .rawPace 2 2 1 0 2
    s.status.cancelPend = false ∧ s.seq.rawPos < s.seq.rawN ∧ 2 = min s.cfg.chunk (s.seq.rawN.toNat - s.seq.rawPos.toNat) ∧
      (rawChunk s).trace = s.trace ++ [.tx 0x15, .tx 0xD8, .drainReq] := by decide +kernel
/-- PendingCancelSilencesOutput: the last tick of a backoff, which would start an attempt; the same state meets the
hypothesis of the second clause with `t = beginAttempt s`. -/
theorem witness_PendingCancelSilencesOutput :
    ∃ s t : State, CtrlInv s ∧ s.status.cancelPend = true ∧ step s = .next t ∧ s.seq.st = .backoff :=
  ⟨((inCommand .backoff 1 3 1).setStatus
      { (inCommand .backoff 1 3 1).status with cancelPend := true }).setInbox [.tick], _,
    by decide +kernel, by decide +kernel, rfl, by decide +kernel⟩
/-- BackoffEndsOnTime, second part: a settle with two ticks left, a pacing tick before and at the payload timeout. -/
theorem witness_BackoffEndsOnTime_tick :
    (let s := (inCommand .xSettle 1 3 2).setInbox [.tick];
      s.inReset = false ∧ s.inbox = .tick :: [] ∧ s.seq.waitLeft ≠ 0 ∧ s.seq.st = .xSettle) ∧
    (let s := (inRaw .rawPace 2 2 1 998 2).setInbox [.tick];
      s.inReset = false ∧ s.inbox = .tick :: [] ∧ s.seq.waitLeft = 1 ∧ s.seq.st = .rawPace ∧
        s.seq.rawElapsed < s.cfg.payloadTimeoutMs ∧ s.seq.rawElapsed + 1 ≠ s.cfg.payloadTimeoutMs) ∧
    (let s := inRaw .rawPace 2 2 1 999 2;
      s.seq.rawElapsed < s.cfg.payloadTimeoutMs ∧ s.seq.rawElapsed + 1 = s.cfg.payloadTimeoutMs) := by decide +kernel
/-- BackoffEndsOnTime, the clauses on BACKOFF, IDLE, X_DRAIN and RAW_DRAIN. -/
theorem witness_BackoffEndsOnTime_still :
    (let s := (inCommand .backoff 1 3 1).setInbox [.tick];
      s.inReset = false ∧ s.inbox = .tick :: [] ∧ s.seq.waitLeft = 1 ∧ s.seq.st = .backoff) ∧
    (let s := (inCommand .xDrain 1 3 0).setInbox [.tick];
      s.inReset = false ∧ s.inbox = .tick :: [] ∧ s.seq.st = .xDrain ∧ base.seq.st = .idle) ∧
    (let s := (inRaw .rawDrain 0 4 0 998 4).setInbox [.tick];
      s.seq.st = .rawDrain ∧ s.seq.rawElapsed < s.cfg.payloadTimeoutMs ∧
        s.seq.rawElapsed + 1 ≠ s.cfg.payloadTimeoutMs) := by decide +kernel
theorem witness_BackoffEndsOnTime :
    let s := (inCommand .backoff 1 3 2).setInbox [.tick, .tick]
    CtrlInv s ∧ s.inReset = false ∧ s.seq.st = .backoff ∧ s.status.cancelPend = false ∧
      s.inbox = List.replicate s.seq.waitLeft.toNat .tick ++ [] := by decide +kernel
theorem witness_PayloadTimeoutEndsRaw :
    let s := (inRaw .rawDrain 0 4 0 998 4).setInbox [.tick, .tick, .drainDone]
    CtrlInv s ∧ s.inReset = false ∧ s.seq.st = .rawDrain ∧ s.seq.rawElapsed < s.cfg.payloadTimeoutMs ∧
      2 = (s.cfg.payloadTimeoutMs - s.seq.rawElapsed).toNat ∧ s.inbox = List.replicate 2 .tick ++ [.drainDone] := by
  decide +kernel
/-- RawSentKept: each of the three clauses of `RawSent` on a state that takes a step. -/
theorem witness_RawSentKept :
    (Safe (inRaw .rawDrain 0 4 0 999 4) ∧ RawSent (inRaw .rawDrain 0 4 0 999 4)) ∧
    (Safe (inRaw .rawPace 2 2 1 0 2) ∧ RawSent (inRaw .rawPace 2 2 1 0 2)) ∧
    (Safe (inRaw .rawSettle 4 4 1 0 4) ∧ RawSent (inRaw .rawSettle 4 4 1 0 4)) ∧
    (∃ t, step ((inRaw .rawPace 2 2 1 0 2).setInbox [.tick]) = .next t) :=
  ⟨⟨safe_inRaw_drain, by decide +kernel⟩, ⟨safe_inRaw_pace, by decide +kernel⟩,
    ⟨safe_inRaw_settle, by decide +kernel⟩, _, rfl⟩
/-- ErrorOnEveryAttempt: three attempts from the first, and the last one alone. -/
theorem witness_ErrorOnEveryAttempt :
    let s := (inCommand .xDrain 1 3 0).setInbox (errorRun base.cfg 3)
    let l := (inCommand .xDrain 3 3 0).setInbox (errorRun base.cfg 1)
    (CtrlInv s ∧ s.inReset = false ∧ s.seq.kind = .cmd ∧ s.seq.st = .xDrain ∧ s.status.cancelPend = false ∧
      s.rxq = [] ∧ s.seq.tmo ≠ 0 ∧ (1 : Nat) ≤ 3 ∧ s.status.attempts.toNat + (3 - 1) = s.seq.maxAtt.toNat ∧
      s.inbox = errorRun s.cfg 3 ++ []) ∧
    (CtrlInv l ∧ l.status.attempts.toNat + (1 - 1) = l.seq.maxAtt.toNat ∧ l.inbox = errorRun l.cfg 1 ++ []) := by
  decide +kernel
theorem witness_InvalidOnlyFromChErr :
    ∃ s t : State, step s = .next t ∧ s.status.outcome ≠ .invalid ∧ t.status.outcome = .invalid :=
  ⟨(inCommand .xRecv 1 3 0).setInbox [.chErr], _, rfl, by decide +kernel, by decide +kernel⟩

/-! ### Witnesses: invariants and whole-machine rules -/

/-- ControlInvKept, SafeKept: the LF that ends a command, and a backoff's last tick. -/
theorem witness_SafeKept :
    (∃ t, Safe (((inCommand .xRecv 1 3 0).setParser ⟨[0x4F, 0x4B], none, 100, 1, 9, 0⟩).setInbox [.rx 0x0A]) ∧
      step (((inCommand .xRecv 1 3 0).setParser ⟨[0x4F, 0x4B], none, 100, 1, 9, 0⟩).setInbox [.rx 0x0A]) = .next t) ∧
    (∃ t, Safe ((inCommand .backoff 2 3 1).setInbox [.tick]) ∧
      step ((inCommand .backoff 2 3 1).setInbox [.tick]) = .next t) :=
  ⟨⟨_, safe_inCommand_recv, rfl⟩, ⟨_, safe_inCommand_backoff, rfl⟩⟩
theorem witness_ResetValues : (0x048 : Offset).toNat < 0x100 ∧ (0x048 : Offset).toNat % 4 = 0 := by decide +kernel
/-- ResetInputForgets, first part: the assertion from a state that is not in reset, with an op running, and a release without
an assertion. -/
theorem witness_ResetInputForgets_edges :
    (let s := (inCommand .xRecv 1 3 0).setInbox [.resetAssert, .tick];
      s.inReset = false ∧ s.inbox = .resetAssert :: [.tick] ∧
        onEvent .resetAssert (fun t => (t.inReset, t.status.busy)) s = some (true, true)) ∧
    (let s := base.setInbox [.resetRelease];
      s.inReset = false ∧ s.inbox = .resetRelease :: []) := by decide +kernel
theorem witness_ResetInputForgets :
    let s := ({ base with inReset := true }).setInbox [.tick, .resetRelease]
    let r := ({ base with inReset := true }).setInbox [.resetRelease]
    (s.inReset = true ∧ s.inbox = .tick :: [.resetRelease] ∧ Event.tick ≠ .resetRelease) ∧
    (r.inReset = true ∧ r.inbox = .resetRelease :: []) := by decide +kernel
/-- NowCountsTicks, second part: a byte in a wait, a DrainDone in a receive, a CMD write in the drain. -/
theorem witness_NowCountsTicks_noTick :
    (let s := (inCommand .xSettle 1 3 1).setInbox [.rx 0x41];
      CtrlInv s ∧ s.inReset = false ∧ s.inbox = .rx 0x41 :: [] ∧ isWait s.seq.st = true) ∧
    (let s := (inProbe 1).setInbox [.drainDone];
      CtrlInv s ∧ s.inReset = false ∧ s.inbox = .drainDone :: [] ∧ isRecv s.seq.st = true) ∧
    (let s := (inCommand .xDrain 1 3 0).setInbox [.hostWrite 0x000 0];
      CtrlInv s ∧ s.inReset = false ∧ s.inbox = .hostWrite 0x000 0 :: [] ∧ s.seq.st = .xDrain) := by decide +kernel
/-- NowCountsTicks, StickyBitsAndCountersStay: a tick, and a CTRL write whose CLR bit is 0. -/
theorem witness_StickyBitsAndCountersStay :
    (∃ t, step (base.setInbox [.tick]) = .next t) ∧
    (∃ t, step (base.setInbox [.hostWrite 0x008 5]) = .next t) ∧ base.inReset = false ∧
      (5 : Word).getLsbD 1 = false := ⟨⟨_, rfl⟩, ⟨_, rfl⟩, by decide +kernel, by decide +kernel⟩
/-- LivenessOnlyFromProbes: a probe that ends OK at NOW = 7. -/
theorem witness_LivenessOnlyFromProbes :
    ∃ s t : State, step s = .next t ∧ s.inReset = false ∧ t.regs.lastAlive ≠ s.regs.lastAlive :=
  ⟨(((inProbe 5).setRegs { (inProbe 5).regs with now := 7 }).setParser ⟨[0x4F, 0x4B], none, 20, 5, 0, 0⟩).setInbox
    [.rx 0x0A], _, rfl, by decide +kernel, by decide +kernel⟩
/-- BusyProtectsOperands: a write to AT_CMDLEN while an op runs. -/
theorem witness_BusyProtectsOperands :
    ∃ s t : State, s.status.busy = true ∧ (∀ p ∈ s.parser.payload, p.length ≤ 256) ∧ step s = .next t ∧
      s.inReset = false :=
  ⟨(inCommand .xRecv 1 3 0).setInbox [.hostWrite 0x040 9], _, by decide +kernel, by decide +kernel, rfl,
    by decide +kernel⟩
theorem witness_UnitsStayApart :
    (∃ t, exec .frFrame base = .next t) ∧
    (∃ t, (inCommand .xRecv 1 3 0).inReset = false ∧ (∀ p ∈ (inCommand .xRecv 1 3 0).parser.payload, p.length ≤ 256) ∧
      (inCommand .xRecv 1 3 0).parser.line.length ≤ 256 ∧ applyEvent .chErr (inCommand .xRecv 1 3 0) = .next t) :=
  ⟨⟨_, rfl⟩, _, by decide +kernel, by decide +kernel, by decide +kernel, rfl⟩
/-- HostReadsChangeNothing: the last word of a window, the first offset after it, a misaligned one, STATUS and the last
offset of the register block. -/
theorem witness_HostReadsChangeNothing :
    ((0x004 : Offset).toNat = 0x004 ∧ (0x0FC : Offset).toNat < 0x100 ∧ (0x0FC : Offset).toNat ≠ 0x004) ∧
    ((base.setInbox [.hostRead 0x153C]).inbox = .hostRead 0x153C :: [] ∧ base.inReset = false ∧
      (0x153C : Offset).toNat % 4 = 0 ∧ 0x1000 ≤ (0x153C : Offset).toNat ∧ (0x153C : Offset).toNat < 0x1540) ∧
    ¬ ((0x1540 : Offset).toNat < 0x1540) ∧ (0x1002 : Offset).toNat % 4 ≠ 0 := by decide +kernel
/-- RegisterWritesFollowTheMap: a protected register while idle and while BUSY, the last offset of the block, a misaligned
offset. -/
theorem witness_RegisterWritesFollowTheMap :
    ((base.setInbox [.hostWrite 0x040 9]).inbox = .hostWrite 0x040 9 :: [] ∧ base.inReset = false ∧
      (0x040 : Offset).toNat < 0x100 ∧ (0x040 : Offset) ≠ 0x000 ∧ (0x040 : Offset) ≠ 0x008 ∧
      (0x040 : Offset).toNat % 4 = 0) ∧
    ((inProbe 1).status.busy = true ∧ (inProbe 1).inReset = false) ∧
    ((0x0FC : Offset).toNat < 0x100 ∧ (0x0FC : Offset).toNat % 4 = 0) ∧
    ((0x0FF : Offset).toNat < 0x100 ∧ (0x0FF : Offset).toNat % 4 ≠ 0) := by decide +kernel
/-- BufferWritesFollowTheMap: each clause at an edge of its range. -/
theorem witness_BufferWritesFollowTheMap :
    (base.setInbox [.hostWrite 0x13FC 1]).inbox = .hostWrite 0x13FC 1 :: [] ∧ base.inReset = false ∧
    (∀ a ∈ ([0x1000, 0x13FC] : List Nat), a % 4 = 0 ∧ 0x1000 ≤ a ∧ a < 0x1400) ∧
    (∀ a ∈ ([0x1400, 0x153C] : List Nat), a % 4 = 0 ∧ 0x1400 ≤ a ∧ a < 0x1540) ∧ base.status.busy = false ∧
    (inProbe 1).status.busy = true ∧ (∀ a ∈ ([0x2000, 0x27FC] : List Nat), a % 4 = 0 ∧ 0x2000 ≤ a ∧ a < 0x2800) ∧
    (∀ a ∈ ([0x100, 0x1540, 0x1700, 0x2800, 0x1001] : List Nat), 0x100 ≤ a ∧ ¬(a % 4 = 0 ∧
      ((0x1000 ≤ a ∧ a < 0x1540) ∨ (0x1600 ≤ a ∧ a < 0x1700) ∨ (0x2000 ≤ a ∧ a < 0x2800)))) := by decide +kernel
theorem witness_CtrlWriteActs :
    (base.setInbox [.hostWrite 0x008 7]).inReset = false ∧
    (base.setInbox [.hostWrite 0x008 7]).inbox = .hostWrite 0x008 7 :: [] := by decide +kernel

end Sys2Proof.Tests
end

section
/-! SUPPORT. What a CMD write does, said once for all ops: the refusal while BUSY, or a body that starts from the state
with DONE cleared. -/

namespace Sys2Proof.Machine

/-! ### Decoded ops are well-formed -/

theorem opOfOpcode_atExec {opc : BitVec 8} {fl flags : BitVec 4} (h : opOfOpcode opc fl = some (.atExec flags)) :
    opc = 0x21 ∧ flags = fl := by
  unfold opOfOpcode at h
  split at h <;> cases h
  next hopc => exact ⟨BitVec.eq_of_toNat_eq hopc, rfl⟩

/-- The last check of 30_encoding R84 leaves only well-formed ops (R83). -/
theorem wellFormed_of_decode {v : Word} {i : Instr} (h : decode v = .ok i) : WellFormed i = true := by
  unfold decode at h
  split at h
  · cases h
  split at h
  · cases h
  next j hop =>
  split_ifs at h with hflags hexec
  cases h
  cases i with
  | atExec flags =>
    obtain ⟨hopc, rfl⟩ := opOfOpcode_atExec hop
    have hbits := not_and.1 hexec hopc
    simpa [WellFormed] using hbits
  | _ => rfl

/-! ### Bodies of the ops -/

/-- What the body of an op does to the state in which it was accepted: the atomic ops complete at once, the AT ops start
and run a chain of elementary moves (30_encoding R84; 42_at_sequencer R195, R196, R209). -/
inductive OpEffect : State → State → Prop where
  | complete (c : Result) (s : State) : OpEffect s (finish c s)
  | results (r0 r1 : Word) (s : State) : OpEffect s (finishWith r0 r1 s)
  | encodingFails (s : State) : OpEffect s (failEnc s)
  | frame (ws : List Word) (n : Nat) (s : State) : OpEffect s (finishFrame ws n s)
  | probe {s t : State} :
      Moves ((startOp .probe s).setStatus { (startOp .probe s).status with attempts := 1 }) t → OpEffect s t
  | exec (flags : BitVec 4) {s t : State} : Moves (latchExec flags (startOp .exec s)) t → OpEffect s t
  | raw {s t : State} : Moves (latchRaw (startOp .raw s)) t → OpEffect s t

/-- Every op is accepted or refused by the same rule, and then only its body differs. -/
theorem exec_body (i : Instr) :
    ∃ k, (∀ s, exec i s = .next (accept k s)) ∧ ∀ s, OpEffect s (k s) := by
  cases i with
  | nop => exact ⟨_, fun _ => rfl, fun s => .complete _ s⟩
  | cwCrc => exact ⟨_, fun _ => rfl, fun s => .results _ _ s⟩
  | cwParity => exact ⟨_, fun _ => rfl, fun s => .results _ _ s⟩
  | cwEncode => exact ⟨_, fun _ => rfl, fun s => .results _ _ s⟩
  | cwAddr => exact ⟨_, fun _ => rfl, fun s => .results _ _ s⟩
  | cwCheck => exact ⟨_, fun _ => rfl, fun s => .results _ _ s⟩
  | frText =>
    refine ⟨_, fun _ => rfl, fun s => ?_⟩
    dsimp only
    split_ifs
    · exact .complete _ s
    · exact .encodingFails s
    · exact .encodingFails s
    · exact .frame _ _ s
  | frFrame =>
    refine ⟨_, fun _ => rfl, fun s => ?_⟩
    dsimp only
    split_ifs
    · exact .encodingFails s
    · exact .encodingFails s
    · exact .encodingFails s
    · exact .frame _ _ s
  | atProbe => exact ⟨_, fun _ => rfl, fun s => .probe (startExchange_moves _ _ _)⟩
  | atExec flags =>
    refine ⟨_, fun _ => rfl, fun s => ?_⟩
    dsimp only
    split_ifs
    · exact .complete _ s
    · exact .exec flags (startExchange_moves _ _ _)
    · exact .exec flags (beginAttempt_moves _)
  | atRaw =>
    refine ⟨_, fun _ => rfl, fun s => ?_⟩
    split_ifs
    · exact .complete _ s
    · exact .raw (rawChunk_moves _)

/-- A CMD write of any word: a word that decodes to no op has the body `finish(BAD_COMMAND)`. -/
theorem command_body (v : Word) :
    ∃ k, (∀ s, command v s = .next (accept k s)) ∧ ∀ s, OpEffect s (k s) := by
  cases hv : decode v with
  | ok i =>
    obtain ⟨k, hexec, heffect⟩ := exec_body i
    exact ⟨k, fun s => by simp only [command, hv, hexec], heffect⟩
  | error _ => exact ⟨finish .badCommand, fun s => by simp only [command, hv], fun s => .complete _ s⟩

theorem command_busy {s : State} (h : s.status.busy = true) (v : Word) : command v s = .next s.setCmdRej := by
  obtain ⟨k, hcommand, -⟩ := command_body v
  rw [hcommand, accept_busy h]

/-- While BUSY = 0 a CMD write does not see DONE, which it clears before anything else (10_state R22). -/
theorem command_clearDone {s : State} (h : s.status.busy = false) (v : Word) :
    command v s = command v (s.setStatus { s.status with done := false }) := by
  obtain ⟨k, hcommand, -⟩ := command_body v
  have haccepted : (s.setStatus { s.status with done := false }).status.busy = false := h
  rw [hcommand, hcommand, accept_idle h, accept_idle haccepted, State.setStatus_setStatus, State.setStatus_status]

theorem command_effect {v : Word} {s t : State} (h : command v s = .next t) :
    (s.status.busy = true ∧ t = s.setCmdRej) ∨
    (s.status.busy = false ∧ OpEffect (s.setStatus { s.status with done := false }) t) := by
  obtain ⟨k, hcommand, heffect⟩ := command_body v
  rw [hcommand] at h
  cases h
  obtain ⟨hb, he⟩ | ⟨hb, he⟩ := accept_cases k s
  · exact .inl ⟨hb, he⟩
  · exact .inr ⟨hb, he ▸ heffect _⟩

/-! ### Events and offsets -/

theorem step_event {s : State} {e : Event} {rest : List Event} (hr : s.inReset = false) (hi : s.inbox = e :: rest) :
    step s = runEvent e (s.setInbox rest) := by
  simp [step, hi, applyEvent, hr]

theorem runEvent_cmdWrite (v : Word) (s : State) : runEvent (.hostWrite 0x000 v) s = command v s := by
  rw [runEvent, if_pos (target_eq_cmd.2 rfl)]

theorem runEvent_busWrite {off : Offset} (h : off ≠ 0) (v : Word) (s : State) :
    runEvent (.hostWrite off v) s = .next (busWrite off v s) :=
  if_neg (mt target_eq_cmd.1 h)

/-- An offset that names a register is that register's in the map of 10_state R21. -/
theorem mem_regMap_of_target {off : Offset} {r : RegName} (h : target off = .reg r) : (off.toNat, r) ∈ regMap := by
  simp only [target] at h
  split_ifs at h
  split at h
  · next hlookup =>
    cases h
    obtain ⟨before, after, hmap, -⟩ := List.lookup_eq_some_iff.1 hlookup
    simp [hmap]
  · cases h

/-- CTRL stands at offset 8 alone (10_state R21). -/
theorem target_eq_ctrl {off : Offset} : target off = .reg .ctrl ↔ off = 0x008 := by
  constructor
  · intro h
    have hoff : off.toNat = 8 := by simpa [regMap] using mem_regMap_of_target h
    exact BitVec.eq_of_toNat_eq hoff
  · rintro rfl
    decide

theorem busWrite_register {off : Offset} {r : RegName} (h : target off = .reg r) (v : Word) (s : State) :
    busWrite off v s = writeReg v s r := by
  simp only [busWrite, h]

theorem busReadValue_register {off : Offset} {r : RegName} (h : target off = .reg r) (s : State) :
    busReadValue s off = readReg s r := by
  simp only [busReadValue, h]

/-! ### CTRL and CMD -/

theorem ctrlCancel_eq (s : State) :
    ctrlCancel s = s.setStatus { s.status with cancelPend := s.status.cancelPend || s.status.busy } := by
  unfold ctrlCancel
  split
  · next hb => simp [hb]
  · next hb =>
    have hpend : (s.status.cancelPend || s.status.busy) = s.status.cancelPend := by simp [hb]
    rw [hpend]
    rfl

/-- A CTRL write in one equation (10_state R26): CANCEL and CLR act on different fields. -/
theorem writeCtrl_eq (v : Word) (s : State) : writeCtrl v s =
    (s.setStatus { s.status with
      cancelPend := s.status.cancelPend || (v.getLsbD 0 && s.status.busy)
      done := s.status.done && !v.getLsbD 1
      busErr := s.status.busErr && !v.getLsbD 1
      cmdRej := s.status.cmdRej && !v.getLsbD 1
      rxqOvf := s.status.rxqOvf && !v.getLsbD 1
      lineOvf := s.status.lineOvf && !v.getLsbD 1
      cherrIgn := s.status.cherrIgn && !v.getLsbD 1 }).setRegs { s.regs with
      irqEn := v.getLsbD 2
      noiseCnt := if v.getLsbD 1 then 0 else s.regs.noiseCnt
      infoCnt := if v.getLsbD 1 then 0 else s.regs.infoCnt
      ignCnt := if v.getLsbD 1 then 0 else s.regs.ignCnt } := by
  unfold writeCtrl
  rw [ctrlCancel_eq]
  cases v.getLsbD 0 <;> cases v.getLsbD 1
  case false.false =>
    simp only [Bool.false_and, Bool.or_false, Bool.not_false, Bool.and_true]
    rfl
  all_goals simp [ctrlClear]

theorem busWrite_ctrl (v : Word) (s : State) : busWrite 0x008 v s = writeCtrl v s :=
  busWrite_register (target_eq_ctrl.2 rfl) v s

theorem busReadValue_ctrl (s : State) : busReadValue s 0x008 = if s.regs.irqEn then 4 else 0 := by
  rw [busReadValue_register (target_eq_ctrl.2 rfl), readReg]
  cases s.regs.irqEn <;> rfl

theorem busReadValue_cmd (s : State) : busReadValue s 0x000 = 0 :=
  busReadValue_register (target_eq_cmd.2 rfl) s

/-! ### The tier 1 statements -/

/-- Settles O5: every CMD write is `accept` of a body, so BUSY and DONE are looked at in one place. -/
theorem cmdWriteAcceptedOnlyWhenIdle : Obligations.CmdWriteAcceptedOnlyWhenIdle :=
  fun s v => ⟨fun hb => command_busy hb v, fun hb => command_clearDone hb v, busReadValue_cmd s⟩

/-- Settles O6: the step is the event's response, and decoding leaves only well-formed ops. -/
theorem stepRunsDecodedOp : Obligations.StepRunsDecodedOp := by
  intro s v rest hr hi
  have hstep : step s = command v (s.setInbox rest) := (step_event hr hi).trans (runEvent_cmdWrite v _)
  refine ⟨hstep, fun i hv => ⟨wellFormed_of_decode hv, ?_⟩⟩
  rw [hstep, command, hv]

/-- Settles O60, by the one equation of a CTRL write. -/
theorem ctrlWriteActs : Obligations.CtrlWriteActs := by
  intro s v rest hr hi
  refine ⟨writeCtrl v (s.setInbox rest), ?_, ?_⟩
  · rw [step_event hr hi, runEvent_busWrite (by decide), busWrite_ctrl]
  · rw [writeCtrl_eq, busReadValue_ctrl]
    exact ⟨rfl, rfl, rfl, rfl, rfl⟩

end Sys2Proof.Machine
end

section
/-! SUPPORT. What a step keeps of NOW, of the sticky bits and counters, and of the sequencer where no tick drives it. -/

namespace Sys2Proof.Machine

/-! ### Events that change nothing, and the choices of a bus access -/

/-- While reset is held every event but the release is ignored (70_reset R270). -/
theorem heldEvent_ignored {e : Event} (h : e ≠ .resetRelease) (s : State) : heldEvent e s = s := by
  cases e with
  | resetRelease => exact absurd rfl h
  | _ => rfl

theorem busRead_cases (off : Offset) (s : State) :
    ∃ w, busRead off s = s.setRdata w ∨ busRead off s = (s.setRdata w).setBusErr := by
  refine ⟨busReadValue s off, ?_⟩
  unfold busRead
  by_cases h : target off = .busError
  · exact .inr (if_pos h)
  · exact .inl (if_neg h)

/-- What a refusal and a store both have, a protected write has (10_state R21). -/
theorem protectedWrite_has {P : State → Prop} {store : State → State} {s : State} (hrefused : P s.setCmdRej)
    (hstored : P (store s)) : P (protectedWrite store s) := by
  unfold protectedWrite
  split
  · exact hrefused
  · exact hstored

/-! ### NOW -/

/-- The registers that the at unit writes: the counters, LAST_ALIVE, RAW_PROGRESS and RESP_LEN (10_state R36 to R39). -/
theorem Move.regs_frame {s t : State} (h : Move s t) : t.regs = { s.regs with
    respLen := t.regs.respLen, noiseCnt := t.regs.noiseCnt, infoCnt := t.regs.infoCnt, ignCnt := t.regs.ignCnt
    lastAlive := t.regs.lastAlive, rawProgress := t.regs.rawProgress } := by
  cases h with
  | responseUpdate => rw [responseUpdate_frame]
  | _ => rfl

theorem Moves.now_eq {s t : State} (h : Moves s t) : t.regs.now = s.regs.now :=
  h.same (f := fun u => u.regs.now) fun _ _ hm => by rw [hm.regs_frame]

theorem OpEffect.now_eq {s t : State} (h : OpEffect s t) : t.regs.now = s.regs.now := by
  cases h with
  | complete | results | encodingFails | frame => rfl
  | probe h => exact h.now_eq
  | exec flags h => exact h.now_eq
  | raw h => exact h.now_eq

theorem command_now {v : Word} {s t : State} (h : command v s = .next t) : t.regs.now = s.regs.now := by
  obtain ⟨-, rfl⟩ | ⟨-, heffect⟩ := command_effect h
  · rfl
  · exact heffect.now_eq

theorem writeReg_now (v : Word) (s : State) (r : RegName) : (writeReg v s r).regs.now = s.regs.now := by
  cases r with
  | ctrl => rw [writeReg, writeCtrl_eq]; rfl
  | atCmdlen | atTimeout | atRetries | atMarklen =>
    exact protectedWrite_has (P := fun u => u.regs.now = s.regs.now) rfl rfl
  | _ => rfl

theorem busWrite_now (off : Offset) (v : Word) (s : State) : (busWrite off v s).regs.now = s.regs.now := by
  cases htarget : target off with
  | reg r => rw [busWrite_register htarget, writeReg_now]
  | lockedBuffer a =>
    simp only [busWrite, htarget]
    exact protectedWrite_has (P := fun u => u.regs.now = s.regs.now) rfl rfl
  | _ => simp only [busWrite, htarget, State.setMem_regs, State.setBusErr_regs]

theorem busRead_now (off : Offset) (s : State) : (busRead off s).regs.now = s.regs.now := by
  obtain ⟨w, h | h⟩ := busRead_cases off s <;> rw [h] <;> rfl

theorem onTick_now (s : State) : (onTick s).regs.now = s.regs.now + 1 :=
  (tickAction_moves (advanceNow s)).now_eq

/-- Outside reset a tick advances NOW and no other event changes it (10_state R27). -/
theorem runEvent_now {e : Event} {s t : State} (h : runEvent e s = .next t) :
    t.regs.now = if e = .tick then s.regs.now + 1 else s.regs.now := by
  obtain ⟨v, rfl, hc⟩ | ⟨off, v, rfl, -, rfl⟩ | ⟨off, rfl, rfl⟩ | ⟨rfl, rfl⟩ | ⟨b, rfl, rfl⟩ | ⟨rfl, rfl⟩ |
    ⟨rfl, rfl⟩ | ⟨rfl, rfl⟩ | ⟨rfl, rfl⟩ := runEvent_cases h
  · exact command_now hc
  · exact busWrite_now off v s
  · exact busRead_now off s
  · exact onTick_now s
  · exact (onRx_moves b s).now_eq
  · exact (onChErr_moves s).now_eq
  · exact (onDrainDone_moves s).now_eq
  · rfl
  · rfl

theorem heldEvent_now (e : Event) (s : State) :
    (heldEvent e s).regs.now = if e = .resetRelease then 0 else s.regs.now := by
  by_cases he : e = .resetRelease
  · rw [if_pos he, he]; rfl
  · rw [if_neg he, heldEvent_ignored he]

/-- NOW across a step (10_state R27; while reset is held, log 9). -/
theorem step_now {s t : State} (h : step s = .next t) :
    t.regs.now =
      if s.inReset = false ∧ s.inbox.head? = some .tick then s.regs.now + 1
      else if s.inReset = true ∧ s.inbox.head? = some .resetRelease then 0
      else s.regs.now := by
  obtain ⟨hi, rfl⟩ | ⟨e, es, hi, hr, rfl⟩ | ⟨e, es, hi, hr, hrun⟩ := step_cases h
  · simp [hi]
  · simp [hi, hr, heldEvent_now]
  · simp [hi, hr, runEvent_now hrun]

/-! ### The sequencer without ticks -/

theorem command_busy_sequencer {v : Word} {s t : State} (hb : s.status.busy = true) (h : command v s = .next t) :
    t.seq = s.seq ∧ t.parser = s.parser := by
  rw [command_busy hb] at h
  cases h
  exact ⟨rfl, rfl⟩

theorem busRead_sequencer (off : Offset) (s : State) :
    (busRead off s).seq = s.seq ∧ (busRead off s).parser = s.parser := by
  obtain ⟨w, h | h⟩ := busRead_cases off s <;> rw [h] <;> exact ⟨rfl, rfl⟩

/-- While an op runs, the host moves neither the sequencer nor the parser (10_state R22; 20_memory R61, R63). -/
theorem runEvent_host_sequencer {e : Event} {s t : State} (hb : s.status.busy = true)
    (he : (∃ off v, e = .hostWrite off v) ∨ ∃ off, e = .hostRead off) (h : runEvent e s = .next t) :
    t.seq = s.seq ∧ t.parser = s.parser := by
  obtain ⟨off, v, rfl⟩ | ⟨off, rfl⟩ := he
  · by_cases h0 : off = 0
    · rw [h0, runEvent_cmdWrite] at h
      exact command_busy_sequencer hb h
    · rw [runEvent_busWrite h0] at h
      cases h
      exact busWrite_sequencer off v s
  · cases h
    exact busRead_sequencer off s

/-- Outside a receive a byte is only queued (42_at_sequencer R173). -/
theorem onRx_queues {s : State} (h : isRecv s.seq.st = false) (b : Byte) : onRx b s = queueByte b s := by
  cases hst : s.seq.st with
  | xRecv | rawRecv => simp [hst, isRecv] at h
  | _ => simp only [onRx, hst]

theorem queueByte_seq (b : Byte) (s : State) : (queueByte b s).seq = s.seq := by
  unfold queueByte
  split <;> rfl

/-- A DrainDone outside the two drain states is stale (42_at_sequencer R175). -/
theorem onDrainDone_stale {s : State} (hx : s.seq.st ≠ .xDrain) (hraw : s.seq.st ≠ .rawDrain) : onDrainDone s = s := by
  cases hst : s.seq.st with
  | xDrain => exact absurd hst hx
  | rawDrain => exact absurd hst hraw
  | _ => simp only [onDrainDone, hst]

theorem ne_of_isWait {x y : SeqState} (hx : isWait x = true) (hy : isWait y = false) : x ≠ y :=
  ne_of_apply_ne isWait (by rw [hx, hy]; decide)

theorem ne_of_isRecv {x y : SeqState} (hx : isRecv x = true) (hy : isRecv y = false) : x ≠ y :=
  ne_of_apply_ne isRecv (by rw [hx, hy]; decide)

theorem isRecv_of_isWait {x : SeqState} (h : isWait x = true) : isRecv x = false := by
  cases x with
  | xRecv | rawRecv => cases h
  | _ => rfl

/-- Without a tick, no wait and no receive's countdown moves, and a drain only by its DrainDone (70_reset R274, R288). -/
theorem runEvent_without_tick {e : Event} {s t : State} (hs : CtrlInv s) (h : runEvent e s = .next t)
    (he : e = .drainDone ∨ (∃ b, e = .rx b) ∨ (∃ off v, e = .hostWrite off v) ∨ ∃ off, e = .hostRead off) :
    (isWait s.seq.st = true → t.seq = s.seq) ∧
    (isRecv s.seq.st = true → (∀ b, e ≠ .rx b) → t.seq = s.seq ∧ t.parser = s.parser) ∧
    (s.seq.st = .xDrain ∨ s.seq.st = .rawDrain → e ≠ .drainDone → t.seq = s.seq) := by
  obtain ⟨-, hbusy, -⟩ := hs
  obtain rfl | ⟨b, rfl⟩ | hhost := he
  · cases h
    refine ⟨fun hw => ?_, fun hrecv _ => ?_, fun _ hne => absurd rfl hne⟩
    · rw [onDrainDone_stale (ne_of_isWait hw rfl) (ne_of_isWait hw rfl)]
    · rw [onDrainDone_stale (ne_of_isRecv hrecv rfl) (ne_of_isRecv hrecv rfl)]
      exact ⟨rfl, rfl⟩
  · cases h
    have hqueued (hrecv : isRecv s.seq.st = false) : (onRx b s).seq = s.seq := by
      rw [onRx_queues hrecv, queueByte_seq]
    refine ⟨fun hw => hqueued (isRecv_of_isWait hw), fun _ hne => absurd rfl (hne b), fun hdrain _ => hqueued ?_⟩
    obtain hst | hst := hdrain <;> rw [hst] <;> rfl
  · have hsame (hst : s.seq.st ≠ .idle) := runEvent_host_sequencer (hbusy.2 hst) hhost h
    refine ⟨fun hw => (hsame (ne_of_isWait hw rfl)).1, fun hrecv _ => hsame (ne_of_isRecv hrecv rfl),
      fun hdrain _ => (hsame ?_).1⟩
    obtain hst | hst := hdrain <;> rw [hst] <;> decide

/-- Settles O51: NOW is followed through the events of a step, the sequencer through what a host access, a byte and a
DrainDone do in each kind of state. -/
theorem nowCountsTicks : Obligations.NowCountsTicks := by
  refine ⟨fun s t => step_now, fun s t e rest hs hr hi h he => ?_⟩
  rw [step_event hr hi] at h
  exact runEvent_without_tick (s := s.setInbox rest) hs h he

/-! ### Sticky bits and counters -/

/-- The sticky bits (10_state R25). -/
def Status.sticky (x : Status) : Bool × Bool × Bool × Bool × Bool :=
  (x.busErr, x.cmdRej, x.rxqOvf, x.lineOvf, x.cherrIgn)

/-- NOISE_CNT, INFO_CNT, IGN_CNT (10_state R37). -/
def Regs.counters (x : Regs) : Word × Word × Word := (x.noiseCnt, x.infoCnt, x.ignCnt)

/-- No sticky bit is lost and no counter falls from `s` to `t` (10_state R25, R37). -/
structure StickyLe (s t : State) : Prop where
  busErr : s.status.busErr = true → t.status.busErr = true
  cmdRej : s.status.cmdRej = true → t.status.cmdRej = true
  rxqOvf : s.status.rxqOvf = true → t.status.rxqOvf = true
  lineOvf : s.status.lineOvf = true → t.status.lineOvf = true
  cherrIgn : s.status.cherrIgn = true → t.status.cherrIgn = true
  noiseCnt : s.regs.noiseCnt ≤ t.regs.noiseCnt
  infoCnt : s.regs.infoCnt ≤ t.regs.infoCnt
  ignCnt : s.regs.ignCnt ≤ t.regs.ignCnt

theorem StickyLe.of_same {s t : State} (hbits : t.status.sticky = s.status.sticky)
    (hcounts : t.regs.counters = s.regs.counters) : StickyLe s t := by
  simp only [Status.sticky, Regs.counters, Prod.mk.injEq] at hbits hcounts
  obtain ⟨hbus, hcmd, hrxq, hline, hcherr⟩ := hbits
  obtain ⟨hnoise, hinfo, hign⟩ := hcounts
  exact ⟨hbus.trans, hcmd.trans, hrxq.trans, hline.trans, hcherr.trans, hnoise ▸ BitVec.le_refl _,
    hinfo ▸ BitVec.le_refl _, hign ▸ BitVec.le_refl _⟩

theorem StickyLe.refl (s : State) : StickyLe s s := .of_same rfl rfl

theorem StickyLe.trans {s t u : State} (h : StickyLe s t) (k : StickyLe t u) : StickyLe s u where
  busErr := k.busErr ∘ h.busErr
  cmdRej := k.cmdRej ∘ h.cmdRej
  rxqOvf := k.rxqOvf ∘ h.rxqOvf
  lineOvf := k.lineOvf ∘ h.lineOvf
  cherrIgn := k.cherrIgn ∘ h.cherrIgn
  noiseCnt := BitVec.le_trans h.noiseCnt k.noiseCnt
  infoCnt := BitVec.le_trans h.infoCnt k.infoCnt
  ignCnt := BitVec.le_trans h.ignCnt k.ignCnt

theorem StickyLe.after_same {s u t : State} (h : StickyLe u t) (hbits : u.status.sticky = s.status.sticky)
    (hcounts : u.regs.counters = s.regs.counters) : StickyLe s t :=
  (StickyLe.of_same hbits hcounts).trans h

/-- Events only set sticky bits (10_state R25). -/
theorem stickyLe_setBusErr (s : State) : StickyLe s s.setBusErr :=
  { StickyLe.refl s with busErr := fun _ => rfl }

theorem stickyLe_setCmdRej (s : State) : StickyLe s s.setCmdRej :=
  { StickyLe.refl s with cmdRej := fun _ => rfl }

theorem stickyLe_setRxqOvf (s : State) : StickyLe s s.setRxqOvf :=
  { StickyLe.refl s with rxqOvf := fun _ => rfl }

theorem stickyLe_setLineOvf (s : State) : StickyLe s s.setLineOvf :=
  { StickyLe.refl s with lineOvf := fun _ => rfl }

theorem stickyLe_setCherrIgn (s : State) : StickyLe s s.setCherrIgn :=
  { StickyLe.refl s with cherrIgn := fun _ => rfl }

/-- A counter saturates and does not wrap (10_state R37). -/
theorem le_satInc (x : Word) : x ≤ satInc x := by
  unfold satInc
  split
  · exact BitVec.le_refl x
  · bv_omega

theorem Move.stickyLe {s t : State} (h : Move s t) : StickyLe s t := by
  cases h with
  | lineOvf => exact stickyLe_setLineOvf s
  | rxqOvf => exact stickyLe_setRxqOvf s
  | cherrIgn => exact stickyLe_setCherrIgn s
  | countInfo => exact { StickyLe.refl s with infoCnt := le_satInc _ }
  | countIgn => exact { StickyLe.refl s with ignCnt := le_satInc _ }
  | countNoise => exact { StickyLe.refl s with noiseCnt := le_satInc _ }
  | responseUpdate => rw [responseUpdate_frame]; exact .of_same rfl rfl
  | _ => exact .of_same rfl rfl

theorem Moves.stickyLe {s t : State} (h : Moves s t) : StickyLe s t :=
  h.keeps (P := StickyLe s) (fun _ _ hm hs => hs.trans hm.stickyLe) (.refl s)

/-- No op clears a sticky bit or a counter (10_state R25). -/
theorem OpEffect.stickyLe {s t : State} (h : OpEffect s t) : StickyLe s t := by
  cases h with
  | complete | results | encodingFails | frame => exact .of_same rfl rfl
  | probe h | exec flags h | raw h => exact h.stickyLe.after_same rfl rfl

theorem command_stickyLe {v : Word} {s t : State} (h : command v s = .next t) : StickyLe s t := by
  obtain ⟨-, rfl⟩ | ⟨-, heffect⟩ := command_effect h
  · exact stickyLe_setCmdRej s
  · exact heffect.stickyLe.after_same rfl rfl

/-- A CTRL write without CLR clears nothing (10_state R26). -/
theorem writeCtrl_stickyLe {v : Word} (h : v.getLsbD 1 = false) (s : State) : StickyLe s (writeCtrl v s) := by
  rw [writeCtrl_eq]
  apply StickyLe.of_same
  · simp only [Status.sticky, State.setRegs_status, State.setStatus_status, h, Bool.not_false, Bool.and_true]
  · simp only [Regs.counters, State.setRegs_regs, h, Bool.false_eq_true, if_false]

theorem writeReg_stickyLe {v : Word} {r : RegName} (h : r = .ctrl → v.getLsbD 1 = false) (s : State) :
    StickyLe s (writeReg v s r) := by
  cases r with
  | ctrl => exact writeCtrl_stickyLe (h rfl) s
  | atCmdlen | atTimeout | atRetries | atMarklen =>
    rw [writeReg]
    exact protectedWrite_has (P := StickyLe s) (stickyLe_setCmdRej s) (.of_same rfl rfl)
  | _ => exact .of_same rfl rfl

theorem busWrite_stickyLe {off : Offset} {v : Word} (h : off = 0x008 → v.getLsbD 1 = false) (s : State) :
    StickyLe s (busWrite off v s) := by
  cases htarget : target off with
  | reg r =>
    rw [busWrite_register htarget]
    exact writeReg_stickyLe (fun hctrl => h (target_eq_ctrl.1 (hctrl ▸ htarget))) s
  | lockedBuffer a =>
    simp only [busWrite, htarget]
    exact protectedWrite_has (P := StickyLe s) (stickyLe_setCmdRej s) (.of_same rfl rfl)
  | busError =>
    simp only [busWrite, htarget]
    exact stickyLe_setBusErr s
  | res | openBuffer _ | readOnlyBuffer _ =>
    simp only [busWrite, htarget]
    exact .of_same rfl rfl

theorem busRead_stickyLe (off : Offset) (s : State) : StickyLe s (busRead off s) := by
  obtain ⟨w, h | h⟩ := busRead_cases off s <;> rw [h]
  · exact .of_same rfl rfl
  · exact (stickyLe_setBusErr (s.setRdata w)).after_same rfl rfl

theorem runEvent_stickyLe {e : Event} {s t : State} (h : runEvent e s = .next t)
    (hclr : ∀ v, e = .hostWrite 0x008 v → v.getLsbD 1 = false) : StickyLe s t := by
  obtain ⟨v, -, hc⟩ | ⟨off, v, rfl, -, rfl⟩ | ⟨off, -, rfl⟩ | ⟨-, rfl⟩ | ⟨b, -, rfl⟩ | ⟨-, rfl⟩ | ⟨-, rfl⟩ |
    ⟨-, rfl⟩ | ⟨-, rfl⟩ := runEvent_cases h
  · exact command_stickyLe hc
  · exact busWrite_stickyLe (fun hoff => hclr v (by rw [hoff])) s
  · exact busRead_stickyLe off s
  · exact (tickAction_moves (advanceNow s)).stickyLe.after_same rfl rfl
  · exact (onRx_moves b s).stickyLe
  · exact (onChErr_moves s).stickyLe
  · exact (onDrainDone_moves s).stickyLe
  · exact .of_same rfl rfl
  · exact .refl _

theorem step_stickyLe {s t : State} (h : step s = .next t)
    (hrelease : ¬(s.inReset = true ∧ s.inbox.head? = some .resetRelease))
    (hclr : ∀ v, s.inbox.head? = some (.hostWrite 0x008 v) → v.getLsbD 1 = false) : StickyLe s t := by
  obtain ⟨-, rfl⟩ | ⟨e, es, hi, hr, rfl⟩ | ⟨e, es, hi, -, hrun⟩ := step_cases h
  · exact .refl _
  · rw [heldEvent_ignored fun he => hrelease ⟨hr, by rw [hi, he]; rfl⟩]
    exact .of_same rfl rfl
  · have hkept := runEvent_stickyLe hrun fun v hv => hclr v (by rw [hi, hv]; rfl)
    exact hkept.after_same rfl rfl

/-- Settles O52: `StickyLe` is a preorder that every event but CLR and the reset release goes up in. -/
theorem stickyBitsAndCountersStay : Obligations.StickyBitsAndCountersStay := by
  intro s t h hrelease hclr
  obtain ⟨hbusErr, hcmdRej, hrxqOvf, hlineOvf, hcherrIgn, hnoise, hinfo, hign⟩ := step_stickyLe h hrelease hclr
  exact ⟨hbusErr, hcmdRej, hrxqOvf, hlineOvf, hcherrIgn, hnoise, hinfo, hign⟩

end Sys2Proof.Machine
end

section
/-! SUPPORT. The host bus offset by offset (20_memory R61 to R64): which offsets name what, what a read returns there
and what a write stores there. -/

namespace Sys2Proof.Machine

/-! ### The address map in numbers -/

/-- The offsets of the register block and of the five buffer windows (10_state R20). -/
def Mapped (a : Nat) : Prop :=
  a < 0x100 ∨ (0x1000 ≤ a ∧ a < 0x1540) ∨ (0x1600 ≤ a ∧ a < 0x1700) ∨ (0x2000 ≤ a ∧ a < 0x2800)

theorem target_misaligned {off : Offset} (h : off.toNat % 4 ≠ 0) : target off = .busError :=
  if_pos h

theorem target_registerBlock {off : Offset} (halign : off.toNat % 4 = 0) (hblock : off.toNat < 0x100) :
    target off = ((regMap.lookup off.toNat).map .reg).getD .res := by
  simp only [target, halign, ne_eq, not_true_eq_false, if_false, hblock, if_true]
  cases regMap.lookup off.toNat <;> rfl

/-- The windows above the register block, in numbers (10_state R20). -/
theorem target_above {off : Offset} (halign : off.toNat % 4 = 0) (habove : 0x100 ≤ off.toNat) : target off =
    if 0x1000 ≤ off.toNat ∧ off.toNat < 0x1400 then .openBuffer off.toNat
    else if 0x1400 ≤ off.toNat ∧ off.toNat < 0x1500 then .lockedBuffer off.toNat
    else if 0x1500 ≤ off.toNat ∧ off.toNat < 0x1540 then .lockedBuffer off.toNat
    else if 0x1600 ≤ off.toNat ∧ off.toNat < 0x1700 then .readOnlyBuffer off.toNat
    else if 0x2000 ≤ off.toNat ∧ off.toNat < 0x2800 then .readOnlyBuffer off.toNat
    else .busError := by
  unfold target
  rw [if_neg (by omega), if_neg (by omega)]
  rfl

theorem target_txt {off : Offset} (halign : off.toNat % 4 = 0) (h : 0x1000 ≤ off.toNat ∧ off.toNat < 0x1400) :
    target off = .openBuffer off.toNat := by
  rw [target_above halign (by omega), if_pos h]

theorem target_locked {off : Offset} (halign : off.toNat % 4 = 0) (h : 0x1400 ≤ off.toNat ∧ off.toNat < 0x1540) :
    target off = .lockedBuffer off.toNat := by
  rw [target_above halign (by omega), if_neg (by omega)]
  by_cases hcmdbuf : off.toNat < 0x1500
  · rw [if_pos ⟨h.1, hcmdbuf⟩]
  · rw [if_neg (by omega), if_pos ⟨Nat.not_lt.1 hcmdbuf, h.2⟩]

theorem target_readOnly {off : Offset} (halign : off.toNat % 4 = 0)
    (h : (0x1600 ≤ off.toNat ∧ off.toNat < 0x1700) ∨ (0x2000 ≤ off.toNat ∧ off.toNat < 0x2800)) :
    target off = .readOnlyBuffer off.toNat := by
  rw [target_above halign (by omega), if_neg (by omega), if_neg (by omega), if_neg (by omega)]
  obtain hresp | hout := h
  · rw [if_pos hresp]
  · rw [if_neg (by omega), if_pos hout]

/-- What an aligned mapped offset names: in the register block the map's entry, above it a word of a buffer. -/
theorem target_mapped {off : Offset} (halign : off.toNat % 4 = 0) (hmap : Mapped off.toNat) :
    (off.toNat < 0x100 ∧ target off = ((regMap.lookup off.toNat).map .reg).getD .res) ∨
    (0x1000 ≤ off.toNat ∧ (target off = .openBuffer off.toNat ∨ target off = .lockedBuffer off.toNat ∨
      target off = .readOnlyBuffer off.toNat)) := by
  obtain hblock | hrw | hro := hmap
  · exact .inl ⟨hblock, target_registerBlock halign hblock⟩
  · refine .inr ⟨hrw.1, ?_⟩
    by_cases htxt : off.toNat < 0x1400
    · exact .inl (target_txt halign ⟨hrw.1, htxt⟩)
    · exact .inr (.inl (target_locked halign ⟨Nat.not_lt.1 htxt, hrw.2⟩))
  · exact .inr ⟨by omega, .inr (.inr (target_readOnly halign hro))⟩

/-- A bus error is exactly a misaligned or an unmapped offset (20_memory R62). -/
theorem target_eq_busError {off : Offset} :
    target off = .busError ↔ ¬(off.toNat % 4 = 0 ∧ Mapped off.toNat) := by
  constructor
  · rintro herr ⟨halign, hmap⟩
    obtain ⟨-, h⟩ | ⟨-, h | h | h⟩ := target_mapped halign hmap
    · rw [herr] at h
      cases hreg : regMap.lookup off.toNat <;> simp [hreg] at h
    all_goals simp [herr] at h
  · intro h
    by_cases halign : off.toNat % 4 = 0
    · have hmap : ¬Mapped off.toNat := fun hmap => h ⟨halign, hmap⟩
      unfold Mapped at hmap
      rw [target_above halign (by omega), if_neg (by omega), if_neg (by omega), if_neg (by omega), if_neg (by omega),
        if_neg (by omega)]
    · exact target_misaligned halign

/-! ### Registers and their offsets -/

/-- The offset of a register (10_state R21). -/
def RegName.offset : RegName → Offset
  | .cmd => 0x000
  | .status => 0x004
  | .ctrl => 0x008
  | .now => 0x00C
  | .arg0 => 0x010
  | .arg1 => 0x014
  | .res0 => 0x018
  | .res1 => 0x01C
  | .frAddr => 0x020
  | .frCfg => 0x024
  | .frRepeat => 0x028
  | .txtLen => 0x02C
  | .txtMax => 0x030
  | .outLen => 0x034
  | .frTextwords => 0x038
  | .atCmdlen => 0x040
  | .atTimeout => 0x044
  | .atRetries => 0x048
  | .atMarklen => 0x04C
  | .respLen => 0x050
  | .noiseCnt => 0x054
  | .infoCnt => 0x058
  | .ignCnt => 0x05C
  | .lastAlive => 0x060
  | .rawProgress => 0x064
  | .atState => 0x068

/-- The map of the model and `RegName.offset` agree. -/
theorem regMap_offset : ∀ e ∈ regMap, e.2.offset.toNat = e.1 := by decide

/-- Each register stands at its own offset alone. -/
theorem target_eq_reg {off : Offset} {r : RegName} : target off = .reg r ↔ off = r.offset := by
  constructor
  · intro h
    exact BitVec.eq_of_toNat_eq (regMap_offset _ (mem_regMap_of_target h)).symm
  · rintro rfl
    cases r <;> rfl

/-! ### Reads -/

theorem busReadValue_setInbox (s : State) (es : List Event) (off : Offset) :
    busReadValue (s.setInbox es) off = busReadValue s off := rfl

theorem busReadValue_buffer {off : Offset} (halign : off.toNat % 4 = 0) (hmap : Mapped off.toNat)
    (hbuffer : 0x1000 ≤ off.toNat) (s : State) : busReadValue s off = s.mem.readWord off.toNat := by
  obtain ⟨hblock, -⟩ | ⟨-, h | h | h⟩ := target_mapped halign hmap
  · omega
  all_goals simp only [busReadValue, h]

theorem busReadValue_busError {off : Offset} (h : target off = .busError) (s : State) : busReadValue s off = 0 := by
  simp only [busReadValue, h]

theorem busRead_mapped {off : Offset} (h : target off ≠ .busError) (s : State) :
    busRead off s = s.setRdata (busReadValue s off) :=
  if_neg h

theorem busRead_busError {off : Offset} (h : target off = .busError) (s : State) :
    busRead off s = (s.setRdata 0).setBusErr := by
  rw [busRead, busReadValue_busError h, if_pos h]

theorem lookup_map_snd {β γ : Type} (f : β → γ) (l : List (Nat × β)) (a : Nat) :
    (l.map (Prod.map id f)).lookup a = (l.lookup a).map f := by
  induction l with
  | nil => rfl
  | cons c l ih =>
    obtain ⟨k, b⟩ := c
    by_cases h : a == k <;> simp [List.lookup_cons, h, ih]

theorem lookup_cons_ne {β : Type} {a k : Nat} (h : a ≠ k) (b : β) (l : List (Nat × β)) :
    ((k, b) :: l).lookup a = l.lookup a := by
  rw [List.lookup_cons, beq_false_of_ne h]

/-- A read of the register block goes through the map of 10_state R21; RES offsets read 0. -/
theorem busReadValue_registerBlock {off : Offset} (halign : off.toNat % 4 = 0) (hblock : off.toNat < 0x100)
    (s : State) :
    busReadValue s off = ((regMap.map (Prod.map id (readReg s))).lookup off.toNat).getD 0 := by
  rw [lookup_map_snd, busReadValue, target_registerBlock halign hblock]
  cases regMap.lookup off.toNat <;> rfl

/-- Appending fields is adding the lower one to the shifted upper one. -/
theorem append_nibbles (x y : BitVec 4) :
    (0 : BitVec 24) ++ x ++ y = (x.zeroExtend 32 <<< 4) + y.zeroExtend 32 := by
  apply BitVec.eq_of_toNat_eq
  rw [BitVec.toNat_append, BitVec.toNat_append, ← Nat.shiftLeft_add_eq_or_of_lt y.isLt]
  simp [Nat.shiftLeft_eq]
  omega

/-- AT_STATE as a sum: `kind` counts sixteens, `st` counts ones (10_state R40). -/
theorem Seq.word_eq_add (q : Seq) : q.word = (q.kind.code.zeroExtend 32 <<< 4) + q.st.code.zeroExtend 32 :=
  append_nibbles _ _

theorem readReg_ctrl (s : State) : readReg s .ctrl = if s.regs.irqEn then 4 else 0 :=
  (busReadValue_register (target_eq_ctrl.2 rfl) s).symm.trans (busReadValue_ctrl s)

/-! ### The fields of STATUS (10_state R23) -/

theorem Status.word_flags (t : Status) :
    t.word.getLsbD 0 = t.busy ∧ t.word.getLsbD 1 = t.done ∧ t.word.getLsbD 2 = t.aliveValid ∧
    t.word.getLsbD 3 = t.dataValid ∧ t.word.getLsbD 12 = t.busErr ∧ t.word.getLsbD 13 = t.cmdRej ∧
    t.word.getLsbD 14 = t.rxqOvf ∧ t.word.getLsbD 15 = t.lineOvf ∧ t.word.getLsbD 16 = t.cancelPend ∧
    t.word.getLsbD 17 = t.cherrIgn := by
  simp only [Status.word, BitVec.getLsbD_append]
  simp

theorem Status.word_fields (t : Status) :
    t.word.extractLsb' 4 4 = t.result.code ∧ t.word.extractLsb' 8 4 = t.outcome.code ∧
    t.word.extractLsb' 18 6 = 0 ∧ t.word.extractLsb' 24 8 = t.attempts := by
  unfold Status.word
  refine ⟨?_, ?_, ?_, ?_⟩
  all_goals
    simp (disch := decide) only [BitVec.extractLsb'_append_eq_of_le, BitVec.extractLsb'_append_eq_of_add_le,
      Nat.reduceSub]
    exact BitVec.extractLsb'_eq_self

/-! ### Writes to the register block -/

/-- The registers after a write of `v` at `off` (10_state R21): the read-write ones, and the protected ones while not
BUSY. -/
def storedRegs (x : Regs) (busy : Bool) (v : Word) (off : Offset) : Regs :=
  { x with
    arg0 := if off = RegName.arg0.offset then v else x.arg0
    arg1 := if off = RegName.arg1.offset then v else x.arg1
    frAddr := if off = RegName.frAddr.offset then v else x.frAddr
    frCfg := if off = RegName.frCfg.offset then v.extractLsb' 0 3 else x.frCfg
    frRepeat := if off = RegName.frRepeat.offset then v else x.frRepeat
    txtLen := if off = RegName.txtLen.offset then v else x.txtLen
    txtMax := if off = RegName.txtMax.offset then v else x.txtMax
    atCmdlen := if off = RegName.atCmdlen.offset ∧ busy = false then v else x.atCmdlen
    atTimeout := if off = RegName.atTimeout.offset ∧ busy = false then v else x.atTimeout
    atRetries := if off = RegName.atRetries.offset ∧ busy = false then v.extractLsb' 0 8 else x.atRetries
    atMarklen := if off = RegName.atMarklen.offset ∧ busy = false then v else x.atMarklen }

/-- The offsets that a running op locks (10_state R35). -/
def isProtectedOffset (off : Offset) : Bool :=
  off ∈ [RegName.atCmdlen.offset, RegName.atTimeout.offset, RegName.atRetries.offset, RegName.atMarklen.offset]

/-- STATUS after a write at `off`: CMD_REJ shows that a protected register was locked (70_reset R282). -/
def storedStatus (x : Status) (busy : Bool) (off : Offset) : Status :=
  { x with cmdRej := (isProtectedOffset off && busy) || x.cmdRej }

theorem storedRegs_res {off : Offset} (h : ∀ r : RegName, off ≠ r.offset) (x : Regs) (busy : Bool) (v : Word) :
    storedRegs x busy v off = x := by
  simp only [storedRegs, h, false_and, if_false]

theorem storedStatus_res {off : Offset} (h : ∀ r : RegName, off ≠ r.offset) (x : Status) (busy : Bool) :
    storedStatus x busy off = x := by
  simp [storedStatus, isProtectedOffset, h]

theorem protectedWrite_busy {s : State} (h : s.status.busy = true) (store : State → State) :
    protectedWrite store s = s.setCmdRej :=
  if_pos h

theorem protectedWrite_idle {s : State} (h : s.status.busy = false) (store : State → State) :
    protectedWrite store s = store s :=
  if_neg (by simp [h])

/-- What a write does to any register but CTRL: a read-only one, a read-write one, or a protected one with its two cases
(20_memory R63). -/
theorem writeReg_eq {r : RegName} (h : r ≠ .ctrl) (v : Word) (s : State) : writeReg v s r =
    (s.setRegs (storedRegs s.regs s.status.busy v r.offset)).setStatus
      (storedStatus s.status s.status.busy r.offset) := by
  cases r with
  | ctrl => exact absurd rfl h
  | atCmdlen | atTimeout | atRetries | atMarklen =>
    cases hbusy : s.status.busy
    · rw [writeReg, protectedWrite_idle hbusy]
      rfl
    · rw [writeReg, protectedWrite_busy hbusy]
      rfl
  | _ => rfl

theorem busWrite_registerBlock {off : Offset} (halign : off.toNat % 4 = 0) (hblock : off.toNat < 0x100)
    (hctrl : off ≠ 0x008) (v : Word) (s : State) : busWrite off v s =
    (s.setRegs (storedRegs s.regs s.status.busy v off)).setStatus (storedStatus s.status s.status.busy off) := by
  have htarget := target_registerBlock halign hblock
  cases hreg : regMap.lookup off.toNat with
  | none =>
    rw [hreg] at htarget
    have hres : ∀ r : RegName, off ≠ r.offset := by
      intro r hoff
      rw [target_eq_reg.2 hoff] at htarget
      cases htarget
    rw [busWrite, htarget, storedRegs_res hres, storedStatus_res hres]
    rfl
  | some r =>
    rw [hreg] at htarget
    obtain rfl : off = r.offset := target_eq_reg.1 htarget
    rw [busWrite_register htarget]
    exact writeReg_eq (fun h => hctrl (congrArg RegName.offset h)) v s

theorem step_busWrite {s : State} {off : Offset} {v : Word} {rest : List Event} (hr : s.inReset = false)
    (hi : s.inbox = .hostWrite off v :: rest) (hoff : off ≠ 0) :
    step s = .next (busWrite off v (s.setInbox rest)) :=
  (step_event hr hi).trans (runEvent_busWrite hoff v _)

theorem busWrite_busError {off : Offset} (h : target off = .busError) (v : Word) (s : State) :
    busWrite off v s = s.setBusErr := by
  rw [busWrite, h]

/-! ### Writes to the buffers -/

/-- A write that stores: to TXT always, to CMDBUF and MARKER while not BUSY (10_state R41, R42). -/
theorem busWrite_stores {off : Offset} (halign : off.toNat % 4 = 0) {s : State}
    (h : (0x1000 ≤ off.toNat ∧ off.toNat < 0x1400) ∨
      (0x1400 ≤ off.toNat ∧ off.toNat < 0x1540 ∧ s.status.busy = false)) (v : Word) :
    busWrite off v s = s.setMem (s.mem.writeWord off.toNat v) := by
  obtain htxt | ⟨hlow, hhigh, hidle⟩ := h
  · rw [busWrite, target_txt halign htxt]
  · rw [busWrite, target_locked halign ⟨hlow, hhigh⟩]
    exact protectedWrite_idle hidle _

theorem busWrite_locked {off : Offset} (halign : off.toNat % 4 = 0)
    (h : 0x1400 ≤ off.toNat ∧ off.toNat < 0x1540) {s : State} (hbusy : s.status.busy = true) (v : Word) :
    busWrite off v s = s.setCmdRej := by
  rw [busWrite, target_locked halign h]
  exact protectedWrite_busy hbusy _

theorem busWrite_readOnly {off : Offset} (halign : off.toNat % 4 = 0)
    (h : (0x1600 ≤ off.toNat ∧ off.toNat < 0x1700) ∨ (0x2000 ≤ off.toNat ∧ off.toNat < 0x2800)) (v : Word)
    (s : State) : busWrite off v s = s := by
  rw [busWrite, target_readOnly halign h]

/-- Byte `i` of a stored word, most significant first (20_memory R64). -/
theorem Memory.read_writeWord (m : Memory) (a : Nat) (v : Word) {i : Nat} (hi : i < 4) :
    (m.writeWord a v).read (a + i) = (bytesOfWord v).getD i Memory.unlisted := by
  rw [Memory.writeWord, Memory.read_write_inside (by omega) (by simpa using hi), Nat.add_sub_cancel_left]

theorem Memory.read_writeWord_outside (m : Memory) {a b : Nat} (v : Word) (h : b < a ∨ a + 4 ≤ b) :
    (m.writeWord a v).read b = m.read b :=
  Memory.read_write_outside h

/-! ### The statements -/

/-- Settles O57: each part of the map has its read rule, and the register block is one table. -/
theorem hostReadsChangeNothing : Obligations.HostReadsChangeNothing := by
  intro s off rest hr hi a mapped
  have hstep : step s = .next (busRead off (s.setInbox rest)) := step_event hr hi
  refine ⟨fun halign hmap => ⟨?_, ?_, ?_, ?_⟩, fun hbad => ?_⟩
  · rw [hstep, busRead_mapped (fun herr => target_eq_busError.1 herr ⟨halign, hmap⟩), busReadValue_setInbox]
    rfl
  · exact fun hbuffer => busReadValue_buffer halign hmap hbuffer s
  · intro hblock hne
    -- CMD reads 0 and stands in no entry of the statement's table, STATUS is excluded; the other entries agree.
    rw [busReadValue_registerBlock halign hblock]
    obtain hzero | hzero := eq_or_ne a 0
    · change (List.lookup a _).getD 0 = _
      rw [hzero]
      rfl
    · simp only [regMap, List.map_cons, List.map_nil, Prod.map, id, readReg_ctrl]
      simp only [readReg, Seq.word_eq_add]
      rw [lookup_cons_ne hzero, lookup_cons_ne hne]
      congr!
      · cases s.seq.kind <;> rfl
      · cases s.seq.st <;> rfl
  · intro ha w
    have htarget : target off = .reg .status := target_eq_reg.2 (BitVec.eq_of_toNat_eq ha)
    have hw : w = s.status.word := busReadValue_register htarget s
    obtain ⟨hbusy, hdone, halive, hdata, hbusErr, hcmdRej, hrxqOvf, hlineOvf, hcancel, hcherr⟩ :=
      s.status.word_flags
    obtain ⟨hresult, houtcome, hres, hattempts⟩ := s.status.word_fields
    rw [hw, hresult, houtcome]
    refine ⟨hbusy, hdone, halive, hdata, ?_, ?_, hbusErr, hcmdRej, hrxqOvf, hlineOvf, hcancel, hcherr, hres,
      hattempts⟩
    · cases s.status.result <;> rfl
    · cases s.status.outcome <;> rfl
  · rw [hstep, busRead_busError (target_eq_busError.2 hbad)]
    rfl

/-- Settles O58: the registers and STATUS after a write, with each register at its offset. -/
theorem registerWritesFollowTheMap : Obligations.RegisterWritesFollowTheMap := by
  intro s off v rest hr hi hblock hcmd hctrl
  rw [step_busWrite hr hi hcmd]
  refine ⟨fun halign => ?_, fun hbad => ?_⟩
  · rw [busWrite_registerBlock halign hblock hctrl, storedStatus, Bool.or_comm, Bool.and_comm]
    rfl
  · rw [busWrite_busError (target_misaligned hbad)]
    rfl

/-- Settles O59: one rule per window, and the bytes of the stored word. -/
theorem bufferWritesFollowTheMap : Obligations.BufferWritesFollowTheMap := by
  intro s off v rest hr hi habove a
  have hcmd : off ≠ 0 := by
    rintro rfl
    exact absurd habove (by decide)
  rw [step_busWrite hr hi hcmd]
  refine ⟨fun halign h => ⟨_, rfl, ?_⟩, fun halign h hbusy => ?_, fun halign h => ?_, fun hbad => ?_⟩
  · have hread : ∀ i < 4, (s.mem.writeWord a v).read (a + i) = (bytesOfWord v).getD i Memory.unlisted :=
      fun _ => s.mem.read_writeWord a v
    have hmap : Mapped off.toNat := by unfold Mapped; omega
    rw [busWrite_stores (s := s.setInbox rest) halign h, busReadValue_buffer halign hmap (by omega)]
    exact ⟨rfl, s.mem.readWord_writeWord a v, hread 0 (by decide), hread 1 (by decide), hread 2 (by decide),
      hread 3 (by decide), fun b hb => s.mem.read_writeWord_outside v hb⟩
  · rw [busWrite_locked (s := s.setInbox rest) halign h hbusy]
    rfl
  · rw [busWrite_readOnly halign h]
    rfl
  · have herr : target off = .busError :=
      target_eq_busError.2 fun ⟨halign, hmap⟩ => hbad ⟨halign, hmap.resolve_left (by omega)⟩
    rw [busWrite_busError herr]
    rfl

end Sys2Proof.Machine
end

section
/-! SUPPORT. The encoding family (30_encoding R81 to R94): what the decoder accepts, said once field by field, and from
it the statements on decoding, encoding and the refusal of a CMD write. -/

namespace Sys2Proof

/-! ### The fields of a command word -/

/-- The three fields are the whole word: no bit lies outside them (30_encoding R81). -/
theorem word_eq_fields (v : Word) : rsvdField v ++ flagsField v ++ opcodeField v = v := by
  have hhigh : rsvdField v ++ flagsField v = v.extractLsb' 8 24 :=
    BitVec.extractLsb'_append_extractLsb'_eq_extractLsb' rfl
  have hword : v.extractLsb' 8 24 ++ opcodeField v = v.extractLsb' 0 32 :=
    BitVec.extractLsb'_append_extractLsb'_eq_extractLsb' rfl
  rw [hhigh, hword, BitVec.extractLsb'_eq_self]

/-- FLAGS[3:2] are command bits 11:10 (30_encoding R81, R83). -/
theorem flagsField_high (v : Word) : (flagsField v).extractLsb' 2 2 = v.extractLsb' 10 2 := by
  ext k hk
  simp [flagsField, show 2 + k < 4 by omega, ← Nat.add_assoc]

/-- Every op has the word layout of 30_encoding R81. -/
theorem encode_layout (i : Instr) : Laws.EncodingLayout.Statement i := by
  open Laws.EncodingLayout in
  cases i
  exacts [nop, cwCrc, cwParity, cwEncode, cwAddr, cwCheck, frText, frFrame, atProbe, atExec _, atRaw]

/-! ### The opcode map and the decoder -/

/-- The opcode map inverts `opcodeOf`, and AT_EXEC alone takes the FLAGS (30_encoding R82). -/
theorem opOfOpcode_eq_some {opc : BitVec 8} {fl : BitVec 4} {i : Instr} :
    opOfOpcode opc fl = some i ↔ opcodeOf i = opc ∧ (opc = 0x21 → flagsOf i = fl) := by
  constructor
  · intro h
    unfold opOfOpcode at h
    split at h <;> cases h
    all_goals
      next hopc =>
        refine ⟨(BitVec.eq_of_toNat_eq hopc).symm, ?_⟩
        rintro rfl
        simp [flagsOf] at hopc ⊢
  · rintro ⟨rfl, hflags⟩
    cases i with
    | atExec flags => exact congrArg (some ∘ Instr.atExec) (hflags rfl).symm
    | _ => rfl

/-- A well-formed op has FLAGS only if it is AT_EXEC, and those only in bits 1:0 (30_encoding R83). -/
theorem wellFormed_iff {i : Instr} :
    WellFormed i = true ↔
      (opcodeOf i ≠ 0x21 → flagsOf i = 0) ∧ (opcodeOf i = 0x21 → (flagsOf i).extractLsb' 2 2 = 0) := by
  cases i <;> simp [WellFormed, opcodeOf, flagsOf]

/-- The decoder accepts exactly the words whose RSVD is 0 and whose other fields are those of a well-formed op
(30_encoding R84). -/
theorem decode_eq_ok {v : Word} {i : Instr} :
    decode v = .ok i ↔
      rsvdField v = 0 ∧ opcodeOf i = opcodeField v ∧ flagsOf i = flagsField v ∧ WellFormed i = true := by
  constructor
  · intro h
    have hwf : WellFormed i = true := Machine.wellFormed_of_decode h
    unfold decode at h
    split at h
    · cases h
    next hrsvd =>
    split at h
    · cases h
    next j hop =>
    split_ifs at h with hflags hexec
    cases h
    obtain ⟨hopc, hexecFlags⟩ := opOfOpcode_eq_some.1 hop
    refine ⟨not_not.1 hrsvd, hopc, ?_, hwf⟩
    by_cases hx : opcodeField v = 0x21
    · exact hexecFlags hx
    · rw [(wellFormed_iff.1 hwf).1 (hopc ▸ hx), not_not.1 (not_and.1 hflags hx)]
  · rintro ⟨hrsvd, hopc, hflags, hwf⟩
    have hop : opOfOpcode (opcodeField v) (flagsField v) = some i := opOfOpcode_eq_some.2 ⟨hopc, fun _ => hflags⟩
    obtain ⟨hnone, hhigh⟩ := wellFormed_iff.1 hwf
    rw [hopc, hflags] at hnone hhigh
    simp only [decode, hrsvd, hop]
    rw [if_neg (not_not.2 rfl), if_neg (fun h => h.2 (hnone h.1)), if_neg (fun h => h.2 (hhigh h.1))]

/-- Settles O1: the decoder's fields and the encoder's are the same three, and they make up the word. -/
theorem decodeAndEncodeAgree : Obligations.DecodeAndEncodeAgree := by
  intro v i
  rw [decode_eq_ok]
  constructor
  · rintro ⟨hrsvd, hopc, hflags, hwf⟩
    refine ⟨hwf, ?_⟩
    calc encode i = rsvdField v ++ flagsField v ++ opcodeField v := by rw [encode, hrsvd, hopc, hflags]
      _ = v := word_eq_fields v
  · rintro ⟨hwf, rfl⟩
    obtain ⟨hrsvd, hopc, hflags, -⟩ := encode_layout i hwf
    exact ⟨hrsvd, hopc.symm, hflags.symm, hwf⟩

/-! ### The well-formed ops and their words -/

/-- The ops that a command word can ask for: AT_EXEC has two free FLAGS bits (30_encoding R83). -/
def wellFormedOps : List Instr :=
  [.nop, .cwCrc, .cwParity, .cwEncode, .cwAddr, .cwCheck, .frText, .frFrame, .atProbe, .atExec 0, .atExec 1, .atExec 2,
    .atExec 3, .atRaw]

theorem atExec_mem_wellFormedOps :
    ∀ flags : BitVec 4, .atExec flags ∈ wellFormedOps ↔ WellFormed (.atExec flags) = true := by
  decide

theorem mem_wellFormedOps {i : Instr} : i ∈ wellFormedOps ↔ WellFormed i = true := by
  cases i with
  | atExec flags => exact atExec_mem_wellFormedOps flags
  | _ => decide

/-- R94's command words, in the order of the ops. -/
theorem encode_wellFormedOps : wellFormedOps.map encode =
    [0x00, 0x01, 0x02, 0x03, 0x04, 0x05, 0x10, 0x11, 0x20, 0x21, 0x121, 0x221, 0x321, 0x22] := by
  decide

/-- Settles O3: the words that decode are the encodings of the well-formed ops, which are listed. -/
theorem onlyFourteenWordsAreCommands : Obligations.OnlyFourteenWordsAreCommands := by
  intro v
  calc (∃ i, decode v = .ok i)
      ↔ ∃ i ∈ wellFormedOps, encode i = v := by simp only [decodeAndEncodeAgree v, mem_wellFormedOps]
    _ ↔ v ∈ wellFormedOps.map encode := List.mem_map.symm
    _ ↔ _ := by rw [encode_wellFormedOps]

/-- Settles O2: the decoder on R94's words. -/
theorem sampleWordsDecode : Obligations.SampleWordsDecode := by
  unfold Obligations.SampleWordsDecode
  decide

/-! ### What a CMD write's checks decide (30_encoding R84) -/

/-- The opcodes of the opcode map (30_encoding R82). -/
def listedOpcodes : List (BitVec 8) := [0x00, 0x01, 0x02, 0x03, 0x04, 0x05, 0x10, 0x11, 0x20, 0x21, 0x22]

theorem exists_op_of_listed : ∀ opc ∈ listedOpcodes, ∃ i ∈ wellFormedOps, opcodeOf i = opc ∧ flagsOf i = 0 := by
  decide

theorem opcodeOf_mem_listed (i : Instr) : opcodeOf i ∈ listedOpcodes := by
  cases i <;> simp [opcodeOf, listedOpcodes]

/-- Which OPCODE and FLAGS some well-formed op has. -/
theorem exists_op_iff {opc : BitVec 8} {fl : BitVec 4} :
    (∃ i, opcodeOf i = opc ∧ flagsOf i = fl ∧ WellFormed i = true) ↔
      opc ∈ listedOpcodes ∧ (opc ≠ 0x21 → fl = 0) ∧ (opc = 0x21 → fl.extractLsb' 2 2 = 0) := by
  constructor
  · rintro ⟨i, rfl, rfl, hwf⟩
    exact ⟨opcodeOf_mem_listed i, wellFormed_iff.1 hwf⟩
  · rintro ⟨hlisted, hnone, hhigh⟩
    by_cases hx : opc = 0x21
    · exact ⟨.atExec fl, hx.symm, rfl, wellFormed_iff.2 ⟨fun h => absurd rfl h, fun _ => hhigh hx⟩⟩
    · obtain ⟨i, hi, hopc, hflags⟩ := exists_op_of_listed opc hlisted
      exact ⟨i, hopc, hflags.trans (hnone hx).symm, mem_wellFormedOps.1 hi⟩

/-- The words that decode, by the four checks. -/
theorem exists_decode_iff {v : Word} :
    (∃ i, decode v = .ok i) ↔
      ¬(rsvdField v ≠ 0 ∨ opcodeField v ∉ listedOpcodes ∨ (opcodeField v ≠ 0x21 ∧ flagsField v ≠ 0) ∨
        (opcodeField v = 0x21 ∧ v.extractLsb' 10 2 ≠ 0)) := by
  simp only [decode_eq_ok, exists_and_left, exists_op_iff, flagsField_high, not_or, not_and, not_not]

end Sys2Proof

namespace Sys2Proof.Machine

/-- An accepted word that decodes to no op completes BAD_COMMAND (30_encoding R84). -/
theorem command_refused {v : Word} {s : State} (hidle : Idle s) (hv : ¬∃ i, decode v = .ok i) :
    command v s = .next (completed .badCommand s) := by
  cases hd : decode v with
  | ok i => exact absurd ⟨i, hd⟩ hv
  | error _ =>
    rw [command, hd]
    dsimp only
    rw [accept_idle hidle.2, finish_idle (idle_accepted hidle)]
    rfl

/-- An accepted word that decodes performs its op with DONE cleared (30_encoding R84). -/
theorem command_performed {v : Word} {i : Instr} {s : State} (hbusy : s.status.busy = false) (hv : decode v = .ok i) :
    command v s = exec i (s.setStatus { s.status with done := false }) := by
  rw [command_clearDone hbusy, command, hv]

/-- Settles O4: the four checks say whether the word decodes. -/
theorem commandChecksDecide : Obligations.CommandChecksDecide := by
  intro s v hidle
  refine ⟨fun hbad => command_refused hidle fun hv => exists_decode_iff.1 hv hbad, fun hgood => ?_⟩
  obtain ⟨i, hv⟩ := exists_decode_iff.2 hgood
  obtain ⟨-, hopc, hflags, -⟩ := decode_eq_ok.1 hv
  exact ⟨i, hopc, hflags, command_performed hidle.2 hv⟩

end Sys2Proof.Machine
end

section
/-! SUPPORT. The CRC of the cw unit as polynomial division (40_codeword R100, R101): words as polynomials over GF(2),
the division loop step by step, and the laws that linearity gives. -/

namespace Sys2Proof.Machine

open Polynomial

/-! ### Words as polynomials over GF(2) (00_scope R14) -/

theorem coeff_toPoly {w : Nat} (v : BitVec w) (j : Nat) : (toPoly v).coeff j = if v.getLsbD j then 1 else 0 := by
  have hterm : ∀ i, (if v.getLsbD i then X ^ i else (0 : (ZMod 2)[X])).coeff j =
      if j = i then (if v.getLsbD i then 1 else 0) else 0 := by
    intro i
    split_ifs <;> simp_all [coeff_X_pow]
  rw [toPoly, finsetSum_coeff, Finset.sum_congr rfl fun i _ => hterm i, Finset.sum_ite_eq]
  by_cases hj : j < w
  · rw [if_pos (Finset.mem_range.2 hj)]
  · rw [if_neg (mt Finset.mem_range.1 hj), BitVec.getLsbD_of_ge v j (by omega)]
    rfl

/-- Equal polynomials have equal bits. -/
theorem toPoly_injective {w : Nat} {u v : BitVec w} (h : toPoly u = toPoly v) : u = v := by
  apply BitVec.eq_of_getLsbD_eq
  intro j _
  have hj := congrArg (fun p => p.coeff j) h
  simp only [coeff_toPoly] at hj
  cases hu : u.getLsbD j <;> cases hv : v.getLsbD j <;> simp_all

theorem toPoly_xor {w : Nat} (u v : BitVec w) : toPoly (u ^^^ v) = toPoly u + toPoly v := by
  ext j
  rw [coeff_add, coeff_toPoly, coeff_toPoly, coeff_toPoly, BitVec.getLsbD_xor]
  cases u.getLsbD j <;> cases v.getLsbD j <;> decide

/-- Widening and shifting left by `k` multiplies by `x^k`, when no bit is lost. -/
theorem toPoly_zeroExtend_shiftLeft {w w' k : Nat} (v : BitVec w) (h : w + k ≤ w') :
    toPoly (v.zeroExtend w' <<< k) = toPoly v * X ^ k := by
  ext j
  rw [coeff_mul_X_pow', coeff_toPoly, coeff_toPoly, BitVec.getLsbD_shiftLeft, BitVec.getLsbD_setWidth]
  by_cases hjk : j < k
  · simp [hjk]
  · by_cases hjw : j < w'
    · simp [hjw, hjk, show k ≤ j by omega, show j - k < w' by omega]
    · simp [hjw, BitVec.getLsbD_of_ge v (j - k) (by omega)]

/-- Dropping high bits that are 0 keeps the polynomial. -/
theorem toPoly_extractLsb'_zero {w n : Nat} {v : BitVec w} (h : ∀ j, n ≤ j → v.getLsbD j = false) :
    toPoly (v.extractLsb' 0 n) = toPoly v := by
  ext j
  rw [coeff_toPoly, coeff_toPoly]
  by_cases hj : j < n
  · simp [hj]
  · simp [hj, h j (by omega)]

theorem degree_toPoly_lt {w : Nat} (v : BitVec w) : (toPoly v).degree < w := by
  rw [degree_lt_iff_coeff_zero]
  intro j hj
  rw [coeff_toPoly, BitVec.getLsbD_of_ge v j hj]
  rfl

/-! ### The generator -/

theorem coeff_gen : (toPoly gen).coeff 10 = 1 := by
  rw [coeff_toPoly, if_pos (by decide)]

theorem degree_gen_le : (toPoly gen).degree ≤ (10 : Nat) := by
  rw [degree_le_iff_coeff_zero]
  intro j hj
  rw [coeff_toPoly, BitVec.getLsbD_of_ge gen j (Nat.cast_lt.1 hj)]
  rfl

theorem gen_monic : (toPoly gen).Monic :=
  monic_of_degree_le 10 degree_gen_le coeff_gen

theorem degree_gen : (toPoly gen).degree = (10 : Nat) :=
  degree_eq_of_le_of_coeff_ne_zero degree_gen_le (by rw [coeff_gen]; decide)

/-! ### The division loop (40_codeword R100) -/

/-- A step adds a multiple of the generator, or nothing. -/
theorem crcStep_modByMonic (m : BitVec 31) {i : Nat} (hi : i ≤ 30) :
    toPoly (crcStep m i) %ₘ toPoly gen = toPoly m %ₘ toPoly gen := by
  unfold crcStep
  split
  · rw [toPoly_xor, toPoly_zeroExtend_shiftLeft gen (by omega), add_modByMonic, self_mul_modByMonic gen_monic,
      add_zero]
  · rfl

theorem gen_shifted_getLsbD {i j : Nat} (hlo : 10 ≤ i) (hhi : i ≤ 30) (hj : i ≤ j) :
    (gen.zeroExtend 31 <<< (i - 10)).getLsbD j = decide (j = i) := by
  rw [BitVec.getLsbD_shiftLeft, BitVec.getLsbD_setWidth]
  by_cases hji : j = i
  · subst hji
    have hsize : j < 31 ∧ ¬j < j - 10 ∧ j - (j - 10) = 10 := by omega
    simp [hsize, gen]
  · simp [hji, BitVec.getLsbD_of_ge gen (j - (i - 10)) (by omega)]

/-- The step at bit `i` clears that bit and leaves the bits above it. -/
theorem crcStep_getLsbD (m : BitVec 31) {i j : Nat} (hlo : 10 ≤ i) (hhi : i ≤ 30) (hj : i ≤ j) :
    (crcStep m i).getLsbD j = (m.getLsbD j && decide (j ≠ i)) := by
  unfold crcStep
  split
  next hm =>
    rw [BitVec.getLsbD_xor, gen_shifted_getLsbD hlo hhi hj]
    by_cases hji : j = i <;> simp [hji, hm]
  next hm =>
    by_cases hji : j = i <;> simp [hji, hm]

/-- The first `n` of the 21 steps of 40_codeword R100's loop. -/
def crcRun (m : BitVec 31) (n : Nat) : BitVec 31 := ((List.range n).map (fun k => 30 - k)).foldl crcStep m

theorem crc10_eq_crcRun (b : Body) : crc10 b = (crcRun (b.zeroExtend 31 <<< 10) 21).extractLsb' 0 10 := rfl

theorem crcRun_succ (m : BitVec 31) (n : Nat) : crcRun m (n + 1) = crcStep (crcRun m n) (30 - n) := by
  simp [crcRun, List.range_succ]

theorem crcRun_modByMonic (m : BitVec 31) (n : Nat) :
    toPoly (crcRun m n) %ₘ toPoly gen = toPoly m %ₘ toPoly gen := by
  induction n with
  | zero => rfl
  | succ n ih => rw [crcRun_succ, crcStep_modByMonic _ (Nat.sub_le 30 n), ih]

/-- After `n` steps the top `n` bits are 0. -/
theorem crcRun_getLsbD (m : BitVec 31) {n j : Nat} (hn : n ≤ 21) (hj : 31 - n ≤ j) :
    (crcRun m n).getLsbD j = false := by
  induction n generalizing j with
  | zero => exact BitVec.getLsbD_of_ge _ _ hj
  | succ n ih =>
    rw [crcRun_succ, crcStep_getLsbD _ (by omega) (by omega) (by omega)]
    by_cases hji : j = 30 - n
    · simp [hji]
    · rw [ih (by omega) (by omega), Bool.false_and]

/-- Settles O14: the loop keeps the residue of b(x) * x^10 and ends below the generator's degree. -/
theorem crc10IsPolynomialRemainder : Obligations.Crc10IsPolynomialRemainder := by
  intro b
  have hlow : toPoly (crc10 b) = toPoly (crcRun (b.zeroExtend 31 <<< 10) 21) := by
    rw [crc10_eq_crcRun]
    exact toPoly_extractLsb'_zero fun _ => crcRun_getLsbD _ (le_refl 21)
  have hdegree : (toPoly (crc10 b)).degree < (toPoly gen).degree := degree_gen ▸ degree_toPoly_lt (crc10 b)
  calc toPoly (crc10 b)
      = toPoly (crc10 b) %ₘ toPoly gen := ((modByMonic_eq_self_iff gen_monic).2 hdegree).symm
    _ = toPoly (b.zeroExtend 31 <<< 10) %ₘ toPoly gen := by rw [hlow, crcRun_modByMonic]
    _ = (toPoly b * X ^ 10) %ₘ toPoly gen := by rw [toPoly_zeroExtend_shiftLeft b (by omega)]

/-! ### The laws of crc10 (40_codeword R101) -/

/-- Remainders add, so the CRC is linear over XOR. -/
theorem crc10_xor (a b : Body) : crc10 (a ^^^ b) = crc10 a ^^^ crc10 b := by
  apply toPoly_injective
  rw [toPoly_xor, crc10IsPolynomialRemainder, crc10IsPolynomialRemainder a, crc10IsPolynomialRemainder b, toPoly_xor,
    add_mul, add_modByMonic]

/-- One more low bit of `x` is one more power of two in the sum. -/
theorem setWidth_succ_eq_xor_twoPow {w : Nat} (x : BitVec w) (n : Nat) :
    (x.setWidth (n + 1)).setWidth w =
      if x.getLsbD n then (x.setWidth n).setWidth w ^^^ BitVec.twoPow w n else (x.setWidth n).setWidth w := by
  apply BitVec.eq_of_getLsbD_eq
  intro j hj
  rw [apply_ite (BitVec.getLsbD · j)]
  obtain hlt | rfl | hgt := lt_trichotomy j n
  · simp [hj, hlt, show j < n + 1 by omega, hlt.ne]
  · simp [hj]
  · simp [show ¬j < n + 1 by omega, show ¬j < n by omega, hgt.ne]

/-- A function linear over XOR is fixed by its values at the single bits. -/
theorem foldl_range_of_xor_linear {w v : Nat} {f : BitVec w → BitVec v} (hf : ∀ x y, f (x ^^^ y) = f x ^^^ f y)
    (x : BitVec w) (n : Nat) :
    f ((x.setWidth n).setWidth w) =
      (List.range n).foldl (fun acc i => if x.getLsbD i then acc ^^^ f (BitVec.twoPow w i) else acc) 0 := by
  induction n with
  | zero =>
    have hzero : f (0 ^^^ 0) = 0 := (hf 0 0).trans BitVec.xor_self
    simpa [BitVec.of_length_zero] using hzero
  | succ n ih =>
    rw [List.range_succ, List.foldl_append, ← ih, List.foldl_cons, List.foldl_nil, ← hf, ← apply_ite f,
      setWidth_succ_eq_xor_twoPow]

/-- R101's remainders of the single bits 0 to 20. -/
def crcRemainders : List (BitVec 10) :=
  [0x369, 0x1BB, 0x376, 0x185, 0x30A, 0x17D, 0x2FA, 0x29D, 0x253, 0x3CF, 0x0F7, 0x1EE, 0x3DC, 0x0D1, 0x1A2, 0x344,
    0x1E1, 0x3C2, 0x0ED, 0x1DA, 0x3B4]

theorem zip_crcRemainders :
    List.zip (List.range 21) crcRemainders = (List.range 21).map (fun i => (i, crc10 (BitVec.twoPow 21 i))) := by
  decide +kernel

/-- Settles O15: linearity, and the loop's values on single bits. -/
theorem crc10Laws : Obligations.Crc10Laws := by
  refine ⟨crc10_xor, by decide +kernel, by decide +kernel, by decide, fun b => ?_, by decide +kernel⟩
  have hfold := foldl_range_of_xor_linear crc10_xor b 21
  rw [BitVec.setWidth_eq, BitVec.setWidth_eq] at hfold
  change crc10 b = (List.zip (List.range 21) crcRemainders).foldl _ 0
  rw [zip_crcRemainders, List.foldl_map]
  exact hfold

end Sys2Proof.Machine
end

section
/-! SUPPORT. Codewords (40_codeword R102 to R105; 30_encoding R85): the number of ones of a word, the layout of a
codeword as body, CRC and parity, and which words are codewords. -/

namespace Sys2Proof.Machine

/-! ### The number of ones (00_scope R11) -/

/-- Of two predicates' exclusive or, as many elements hold as of both together, up to an even number. -/
theorem countP_xor_mod_two (p q : Nat → Bool) (l : List Nat) :
    l.countP (fun i => p i ^^ q i) % 2 = (l.countP p + l.countP q) % 2 := by
  induction l with
  | nil => rfl
  | cons a l ih =>
    rw [List.countP_cons, List.countP_cons, List.countP_cons]
    cases p a <;> cases q a <;> simp <;> omega

theorem popcount_xor_mod_two {w : Nat} (x y : BitVec w) :
    popcount (x ^^^ y) % 2 = (popcount x + popcount y) % 2 := by
  simp only [popcount, BitVec.getLsbD_xor]
  exact countP_xor_mod_two _ _ _

/-- The model's count is the library's. -/
theorem popcount_eq_cpop {w : Nat} (x : BitVec w) : popcount x = x.cpop.toNat := by
  have hcount : ∀ n, (List.range n).countP (fun i => x.getLsbD i) = x.cpopNatRec n 0 := by
    intro n
    induction n with
    | zero => rfl
    | succ n ih =>
      rw [List.range_succ, List.countP_append, ih, BitVec.cpopNatRec_succ, BitVec.cpopNatRec_add]
      cases hn : x.getLsbD n <;> simp [hn]
  rw [popcount, hcount, BitVec.toNat_cpop]

theorem popcount_append {w v : Nat} (x : BitVec w) (y : BitVec v) : popcount (x ++ y) = popcount x + popcount y := by
  simp only [popcount_eq_cpop, BitVec.toNat_cpop_append]

theorem popcount_bit : ∀ p : BitVec 1, popcount p = p.toNat := by decide

theorem popcount_twoPow {w k : Nat} (hk : k < w) : popcount (BitVec.twoPow w k) = 1 := by
  have hone : popcount (BitVec.twoPow w k) = (List.range w).count k := by
    refine List.countP_congr fun i hi => ?_
    simp [List.mem_range.1 hi]
  rw [hone, List.count_eq_one_of_mem List.nodup_range (List.mem_range.2 hk)]

/-! ### Parity (40_codeword R102, R103) -/

theorem parity31_toNat (x : BitVec 31) : (parity31 x).toNat = popcount x % 2 := by
  simp [parity31]

theorem parity31_xor (x y : BitVec 31) : parity31 (x ^^^ y) = parity31 x ^^^ parity31 y := by
  apply BitVec.eq_of_toNat_eq
  rw [BitVec.toNat_xor, parity31_toNat, parity31_toNat, parity31_toNat, popcount_xor_mod_two]
  calc (popcount x + popcount y) % 2
      = (popcount x ^^^ popcount y) % 2 ^ 1 := Nat.xor_mod_two_eq.symm
    _ = popcount x % 2 ^ 1 ^^^ popcount y % 2 ^ 1 := Nat.xor_mod_two_pow

/-! ### The layout of a codeword (40_codeword R104; 30_encoding R85) -/

/-- Shifted into place and joined by OR, two fields stand side by side. -/
theorem shiftLeft_or_eq_append {w v : Nat} (x : BitVec w) (y : BitVec v) :
    (x.zeroExtend (w + v) <<< v) ||| y.zeroExtend (w + v) = x ++ y := by
  rw [← BitVec.setWidth_append_eq_shiftLeft_setWidth_or, BitVec.setWidth_eq]

/-- A codeword is its body, the body's CRC and the parity of both. -/
theorem cw_eq_append (b : Body) : cw b = b ++ crc10 b ++ parity31 (b ++ crc10 b) := by
  rw [cw, shiftLeft_or_eq_append b (crc10 b)]
  exact shiftLeft_or_eq_append (b ++ crc10 b) (parity31 (b ++ crc10 b))

theorem body_append_crc (w : Word) : w.extractLsb' 11 21 ++ w.extractLsb' 1 10 = w.extractLsb' 1 31 :=
  BitVec.extractLsb'_append_extractLsb'_eq_extractLsb' rfl

theorem covered_append_parity (w : Word) : w.extractLsb' 1 31 ++ w.extractLsb' 0 1 = w :=
  (BitVec.extractLsb'_append_extractLsb'_eq_extractLsb' rfl).trans BitVec.extractLsb'_eq_self

/-- The codeword of `b` is the word with these three fields. -/
theorem eq_cw_iff {w : Word} {b : Body} :
    w = cw b ↔
      w.extractLsb' 11 21 = b ∧ w.extractLsb' 1 10 = crc10 b ∧
        w.extractLsb' 0 1 = parity31 (w.extractLsb' 1 31) := by
  constructor
  · rintro rfl
    have hcovered : (cw b).extractLsb' 1 31 = b ++ crc10 b := by
      rw [cw_eq_append, BitVec.extractLsb'_append_eq_left]
    refine ⟨?_, ?_, ?_⟩
    · rw [cw_eq_append, BitVec.extractLsb'_append_eq_of_le (by decide)]
      exact BitVec.extractLsb'_append_eq_left
    · rw [cw_eq_append, BitVec.extractLsb'_append_eq_of_le (by decide)]
      exact BitVec.extractLsb'_append_eq_right
    · rw [hcovered, cw_eq_append, BitVec.extractLsb'_append_eq_right]
  · rintro ⟨hbody, hcrc, hparity⟩
    rw [cw_eq_append, ← hcrc, ← hbody, body_append_crc, ← hparity, covered_append_parity]

/-- Settles O17: the three fields of a codeword are read back, and they determine it. -/
theorem codewordRoundTrip : Obligations.CodewordRoundTrip := by
  refine ⟨fun b => ?_, fun w => ?_⟩
  · obtain ⟨hbody, hcrc, hparity⟩ := eq_cw_iff.1 (Eq.refl (cw b))
    exact ⟨hbody, by rw [hbody, hcrc], hparity.symm⟩
  · rw [eq_cw_iff, eq_comm, eq_comm (a := parity31 _)]
    exact (and_iff_right rfl).symm

/-- The parity bit makes the number of ones even (40_codeword R102). -/
theorem popcount_cw_even (b : Body) : popcount (cw b) % 2 = 0 := by
  rw [cw_eq_append, popcount_append, popcount_bit, parity31_toNat]
  omega

/-- Settles O16: parity is the count of ones modulo 2, and a codeword carries it as its last bit. -/
theorem parityLaws : Obligations.ParityLaws :=
  ⟨by decide, by decide, by decide, parity31_xor, popcount_cw_even⟩

/-! ### The two mismatches of CW_CHECK (40_codeword R112) -/

theorem crcMismatch_eq_false {w : Word} :
    crcMismatch w = false ↔ w.extractLsb' 1 10 = crc10 (w.extractLsb' 11 21) := by
  simp [crcMismatch]

theorem parityMismatch_eq_false {w : Word} :
    parityMismatch w = false ↔ w.extractLsb' 0 1 = parity31 (w.extractLsb' 1 31) := by
  have hsplit : popcount w = popcount (w.extractLsb' 1 31) + (w.extractLsb' 0 1).toNat := by
    rw [← popcount_bit, ← popcount_append, covered_append_parity]
  have hbit : (w.extractLsb' 0 1).toNat < 2 := BitVec.isLt _
  rw [← BitVec.toNat_inj, parity31_toNat, parityMismatch, hsplit, beq_eq_false_iff_ne]
  omega

/-- The words without a mismatch are the codewords (40_codeword R105). -/
theorem no_mismatch_iff {w : Word} :
    (crcMismatch w = false ∧ parityMismatch w = false) ↔ w = cw (w.extractLsb' 11 21) := by
  rw [crcMismatch_eq_false, parityMismatch_eq_false, eq_cw_iff]
  exact (and_iff_right rfl).symm

theorem natCast_shiftLeft_eq_twoPow (w k : Nat) : ((1 <<< k : Nat) : BitVec w) = BitVec.twoPow w k := by
  apply BitVec.eq_of_toNat_eq
  rw [BitVec.toNat_twoPow, Nat.one_shiftLeft]
  exact BitVec.toNat_ofNat _ _

/-- One flipped bit makes the number of ones odd. -/
theorem parityMismatch_flip (b : Body) {k : Nat} (hk : k < 32) :
    parityMismatch (cw b ^^^ BitVec.twoPow 32 k) = true := by
  rw [parityMismatch, popcount_xor_mod_two, popcount_twoPow hk, Nat.add_mod, popcount_cw_even]
  rfl

end Sys2Proof.Machine
end

section
/-! SUPPORT. NOP and the ops of the cw unit (40_codeword R107 to R112): what each answers in an idle state, and the
refusal of every other word with its opcode. -/

namespace Sys2Proof.Machine

/-! ### Words that share an opcode with an op (30_encoding R84) -/

/-- Only AT_EXEC has several ops under one opcode (30_encoding R82). -/
theorem opcodeOf_injective {i j : Instr} (hi : opcodeOf i ≠ 0x21) (h : opcodeOf j = opcodeOf i) : j = i := by
  have hread : ∀ k, opcodeOf k = opcodeOf i → opOfOpcode (opcodeOf i) 0 = some k :=
    fun k hk => opOfOpcode_eq_some.2 ⟨hk, fun hx => absurd hx hi⟩
  exact Option.some.inj ((hread j h).symm.trans (hread i rfl))

/-- An op without FLAGS is the only one its opcode asks for, and only by its own word. -/
theorem otherWordsRefused {s : State} (hidle : Idle s) {i : Instr} (hi : opcodeOf i ≠ 0x21) :
    OtherWordsRefused (opcodeOf i) [encode i] s := by
  intro v hopc hv
  refine command_refused hidle ?_
  rintro ⟨j, hj⟩
  obtain ⟨-, hjopc, -, -⟩ := decode_eq_ok.1 hj
  obtain ⟨-, hword⟩ := (decodeAndEncodeAgree v j).1 hj
  have hji : j = i := opcodeOf_injective hi (hjopc.trans hopc)
  exact hv (List.mem_singleton.2 (hji ▸ hword.symm))

/-! ### The ops in an idle state -/

/-- A cw op's result registers: RES0 and RES1. -/
def withResults (r0 r1 : Word) (s : State) : State := s.setRegs { s.regs with res0 := r0, res1 := r1 }

theorem finishWith_idle {s : State} (hidle : Idle s) (r0 r1 : Word) :
    finishWith r0 r1 s = completed .ok (withResults r0 r1 s) :=
  finish_idle (s := withResults r0 r1 s) hidle .ok

/-- An accepted cw op writes its two results and completes. -/
theorem accept_finishWith {s : State} (hidle : Idle s) (r0 r1 : State → Word) :
    accept (fun t => finishWith (r0 t) (r1 t) t) s =
      completed .ok (withResults (r0 (s.setStatus { s.status with done := false }))
        (r1 (s.setStatus { s.status with done := false })) s) := by
  rw [accept_idle hidle.2, finishWith_idle (idle_accepted hidle)]
  rfl

theorem exec_nop_idle {s : State} (hidle : Idle s) : exec .nop s = .next (completed .ok s) := by
  rw [exec, execNop, accept_idle hidle.2, finish_idle (idle_accepted hidle)]
  rfl

theorem exec_cwCrc_idle {s : State} (hidle : Idle s) :
    exec .cwCrc s = .next (completed .ok (withResults ((crc10 (bodyOperand s)).zeroExtend 32) 0 s)) :=
  congrArg Host.Outcome.next (accept_finishWith hidle _ _)

theorem exec_cwParity_idle {s : State} (hidle : Idle s) :
    exec .cwParity s = .next (completed .ok (withResults ((parity31 (parityOperand s)).zeroExtend 32) 0 s)) :=
  congrArg Host.Outcome.next (accept_finishWith hidle _ _)

theorem exec_cwEncode_idle {s : State} (hidle : Idle s) :
    exec .cwEncode s = .next (completed .ok (withResults (cw (bodyOperand s)) 0 s)) :=
  congrArg Host.Outcome.next (accept_finishWith hidle _ _)

theorem exec_cwAddr_idle {s : State} (hidle : Idle s) :
    exec .cwAddr s = .next (completed .ok (withResults (cw (addrBody (bodyOperand s) (functionOperand s)))
      ((addrBody (bodyOperand s) (functionOperand s)).zeroExtend 32) s)) :=
  congrArg Host.Outcome.next (accept_finishWith hidle _ _)

theorem exec_cwCheck_idle {s : State} (hidle : Idle s) :
    exec .cwCheck s = .next (completed .ok (withResults
      (if !crcMismatch s.regs.arg0 && !parityMismatch s.regs.arg0 then 1 else 0)
      ((BitVec.ofBool (crcMismatch s.regs.arg0)).zeroExtend 32 <<< 1 |||
        (BitVec.ofBool (parityMismatch s.regs.arg0)).zeroExtend 32) s)) :=
  congrArg Host.Outcome.next (accept_finishWith hidle _ _)

/-! ### The values of the results -/

/-- CW_PARITY's word is 1 for an odd number of ones and 0 otherwise. -/
theorem parity31_word (x : BitVec 31) :
    (parity31 x).zeroExtend 32 = if popcount x % 2 = 1 then (1 : Word) else 0 := by
  rw [parity31]
  obtain h | h := Nat.mod_two_eq_zero_or_one (popcount x) <;> rw [h] <;> rfl

/-- Two fields widened together stand behind zeros. -/
theorem zeroExtend_append {w v : Nat} (m : Nat) (x : BitVec w) (y : BitVec v) :
    (x ++ y).zeroExtend (m + w + v) = (0 : BitVec m) ++ x ++ y := by
  apply BitVec.eq_of_toNat_eq
  have hlt : x.toNat < 2 ^ (m + w) := BitVec.toNat_lt_twoPow_of_le (by omega)
  simp [BitVec.toNat_append, Nat.mod_eq_of_lt hlt]

/-- An address without its 3 low bits, then the function (40_codeword R106). -/
theorem addrBody_eq_zeroExtend (a : Body) (f : BitVec 2) : addrBody a f = (a.extractLsb' 3 18 ++ f).zeroExtend 21 := by
  have hshift : a >>> 3 = (a.extractLsb' 3 18).zeroExtend 21 :=
    (BitVec.ushiftRight_eq_extractLsb'_of_lt (by decide)).trans (BitVec.setWidth_eq_append (by decide)).symm
  rw [addrBody, hshift, ← BitVec.setWidth_append_eq_shiftLeft_setWidth_or]

/-- The address body: flag 0, the 18 high bits of the address, the function (40_codeword R106; 30_encoding R86). -/
theorem addrBody_eq_append (a : Body) (f : BitVec 2) :
    addrBody a f = (0 : BitVec 1) ++ a.extractLsb' 3 18 ++ f := by
  rw [addrBody_eq_zeroExtend]
  exact zeroExtend_append 1 _ f

theorem addrBody_word (a : Body) (f : BitVec 2) :
    (addrBody a f).zeroExtend 32 = (0 : BitVec 12) ++ a.extractLsb' 3 18 ++ f := by
  rw [addrBody_eq_zeroExtend]
  exact (BitVec.setWidth_setWidth (by decide)).trans (zeroExtend_append 12 _ f)

theorem bodyOperand_high (s : State) : (bodyOperand s).extractLsb' 3 18 = s.regs.arg0.extractLsb' 3 18 :=
  BitVec.extractLsb'_extractLsb'_of_le (by decide)

/-- CW_CHECK's RES1: the CRC mismatch over the parity mismatch. -/
theorem mismatch_word (cm pm : Bool) :
    (BitVec.ofBool cm).zeroExtend 32 <<< 1 ||| (BitVec.ofBool pm).zeroExtend 32 =
      (0 : BitVec 30) ++ BitVec.ofBool cm ++ BitVec.ofBool pm := by
  rw [← BitVec.setWidth_append_eq_shiftLeft_setWidth_or]
  exact zeroExtend_append 30 _ _

/-- CW_CHECK's RES0 is 1 exactly for a codeword (40_codeword R112). -/
theorem accepted_word_iff {w : Word} :
    (if !crcMismatch w && !parityMismatch w then (1 : Word) else 0) = 1 ↔ w = cw (w.extractLsb' 11 21) := by
  rw [← no_mismatch_iff, ← Bool.not_eq_true', ← Bool.not_eq_true', ← Bool.and_eq_true]
  simp

/-! ### The statements -/

/-- Settles O7: the completion of an accepted NOP. -/
theorem nopOnlyCompletes : Obligations.NopOnlyCompletes :=
  fun _ hidle => ⟨exec_nop_idle hidle, otherWordsRefused (i := .nop) hidle (by decide)⟩

/-- Settles O8: the completion of an accepted CW_CRC. -/
theorem cwCrcResult : Obligations.CwCrcResult :=
  fun _ hidle => ⟨exec_cwCrc_idle hidle, otherWordsRefused (i := .cwCrc) hidle (by decide)⟩

/-- Settles O9: the parity bit as a word is the count of ones modulo 2. -/
theorem cwParityResult : Obligations.CwParityResult := by
  intro s hidle
  refine ⟨?_, otherWordsRefused (i := .cwParity) hidle (by decide)⟩
  rw [exec_cwParity_idle hidle, parity31_word]
  rfl

/-- Settles O10: the completion of an accepted CW_ENCODE. -/
theorem cwEncodeResult : Obligations.CwEncodeResult :=
  fun _ hidle => ⟨exec_cwEncode_idle hidle, otherWordsRefused (i := .cwEncode) hidle (by decide)⟩

/-- Settles O11: the address body is its three fields side by side. -/
theorem cwAddrResult : Obligations.CwAddrResult := by
  intro s hidle
  refine ⟨?_, otherWordsRefused (i := .cwAddr) hidle (by decide)⟩
  rw [exec_cwAddr_idle hidle, addrBody_word, addrBody_eq_append, bodyOperand_high]
  rfl

/-- Settles O12: the two mismatches are those of the model, read as propositions. -/
theorem cwCheckResult : Obligations.CwCheckResult := by
  intro s hidle
  refine ⟨⟨crcMismatch s.regs.arg0, parityMismatch s.regs.arg0, bne_iff_ne, beq_iff_eq, ?_⟩,
    otherWordsRefused (i := .cwCheck) hidle (by decide)⟩
  simp only [exec_cwCheck_idle hidle, mismatch_word, Bool.and_eq_true, Bool.not_eq_true']
  rfl

/-- Settles O13: CW_CHECK sees no mismatch exactly in the codewords, and a parity mismatch after one flipped bit. -/
theorem cwCheckAcceptsExactlyCodewords : Obligations.CwCheckAcceptsExactlyCodewords := by
  refine ⟨fun s hidle => ⟨_, exec_cwCheck_idle hidle, ?_⟩,
    fun s b k hidle hk harg => ⟨_, exec_cwCheck_idle hidle, ?_⟩⟩
  · exact accepted_word_iff
  · have hodd : parityMismatch s.regs.arg0 = true := by
      rw [harg, natCast_shiftLeft_eq_twoPow]
      exact parityMismatch_flip b hk
    change (if !crcMismatch s.regs.arg0 && !parityMismatch s.regs.arg0 then (1 : Word) else 0) = 0
    rw [hodd, Bool.not_true, Bool.and_false]
    rfl

end Sys2Proof.Machine
end

section
/-! SUPPORT. The text packer of the fr unit (41_framer R131 to R139): lists made of blocks of one size, fields packed
from pieces of one width, and from them every bit of a data field. -/

namespace Sys2Proof.Machine

/-! ### Lists made of blocks of one size -/

section
variable {α β : Type} {f : α → List β} {n : Nat}

theorem length_flatMap_blocks (hf : ∀ x, (f x).length = n) (l : List α) : (l.flatMap f).length = n * l.length := by
  simp [List.length_flatMap, hf, Nat.mul_comm]

/-- Item `j` of block `k`. -/
theorem getElem?_flatMap_blocks (hf : ∀ x, (f x).length = n) (l : List α) (k : Nat) {j : Nat} (hj : j < n) :
    (l.flatMap f)[n * k + j]? = l[k]?.bind fun x => (f x)[j]? := by
  induction l generalizing k with
  | nil => simp
  | cons x l ih =>
    rw [List.flatMap_cons]
    cases k with
    | zero =>
      rw [List.getElem?_append_left (by simpa [hf] using hj)]
      simp
    | succ k =>
      have hrest : n * (k + 1) + j - (f x).length = n * k + j := by rw [hf, Nat.mul_succ]; omega
      rw [List.getElem?_append_right (by rw [hf, Nat.mul_succ]; omega), hrest, ih, List.getElem?_cons_succ]

end

/-! ### Fields packed from pieces -/

/-- Shifted in one after another, the pieces stand in the field with the last one lowest (41_framer R134, R136). -/
theorem getLsbD_packed {α : Type} {w : Nat} (f : α → BitVec w) (xs : List α) {q i : Nat} (hi : i < w)
    (hp : w * q + i < 20) :
    (xs.foldl (fun (d : DataField) x => (d <<< w) ||| (f x).zeroExtend 20) 0).getLsbD (w * q + i) =
      (xs.reverse[q]?.elim false fun x => (f x).getLsbD i) := by
  induction xs using List.reverseRecOn generalizing q with
  | nil => simp
  | append_singleton xs x ih =>
    rw [List.foldl_append, List.foldl_cons, List.foldl_nil, List.reverse_concat, BitVec.getLsbD_or,
      BitVec.getLsbD_shiftLeft, BitVec.getLsbD_setWidth]
    cases q with
    | zero =>
      have hi20 : i < 20 := by simpa using hp
      simp [hi, hi20]
    | succ q =>
      rw [Nat.mul_succ] at hp ⊢
      have hprev := ih (q := q) (by omega)
      have hsub : w * q + w + i - w = w * q + i := by omega
      have hhigh : (f x).getLsbD (w * q + w + i) = false := BitVec.getLsbD_of_ge _ _ (by omega)
      rw [hhigh, hsub, hprev, List.getElem?_cons_succ]
      simp [hp, show w ≤ w * q + w + i by omega]

/-- A packed field whose pieces are given by their places, the first one highest. -/
theorem getLsbD_packed_range {w : Nat} (f : Nat → BitVec w) {n j i : Nat} (hj : j < n) (hi : i < w)
    (hp : w * (n - 1 - j) + i < 20) :
    ((List.range n).foldl (fun (d : DataField) j => (d <<< w) ||| (f j).zeroExtend 20) 0).getLsbD
      (w * (n - 1 - j) + i) = (f j).getLsbD i := by
  have hplace : (List.range n).reverse[n - 1 - j]? = some j := by
    rw [List.getElem?_reverse (by rw [List.length_range]; omega), List.length_range, List.getElem?_range (by omega)]
    congr 1
    omega
  rw [getLsbD_packed f _ hi hp, hplace]
  rfl

/-! ### Alphanumeric fields (41_framer R132 to R134) -/

@[simp] theorem length_charBits (msbFirst : Bool) (c : Byte) : (charBits msbFirst c).length = 7 := by simp [charBits]

theorem length_bitStream (msbFirst : Bool) (text : List Byte) :
    (bitStream msbFirst text).length = 7 * text.length :=
  length_flatMap_blocks (length_charBits msbFirst) text

/-- Bit `n` of the stream is bit `n mod 7` of character `n div 7`, in the chosen order. -/
theorem bitStream_getD (msbFirst : Bool) (text : List Byte) (n : Nat) :
    (bitStream msbFirst text).getD n false =
      (decide (n < 7 * text.length) &&
        (text.getD (n / 7) 0).getLsbD (if msbFirst then 6 - n % 7 else n % 7)) := by
  rw [List.getD_eq_getElem?_getD]
  by_cases hn : n < 7 * text.length
  · have hbit : n % 7 < 7 := Nat.mod_lt _ (by decide)
    have hchar : n / 7 < text.length := by omega
    have hstream : (bitStream msbFirst text)[n]? = _ :=
      Nat.div_add_mod n 7 ▸ getElem?_flatMap_blocks (length_charBits msbFirst) text (n / 7) hbit
    rw [hstream]
    simp [charBits, hn, hchar, hbit]
  · rw [List.getElem?_eq_none (by rw [length_bitStream]; omega)]
    simp [hn]

theorem fieldOfBits_getLsbD (b : Nat → Bool) {j : Nat} (hj : j < 20) :
    (fieldOfBits ((List.range 20).map b)).getLsbD (19 - j) = b j := by
  have hpack := getLsbD_packed_range (fun j => BitVec.ofBool (b j)) (i := 0) hj (by decide) (by omega)
  rw [Nat.one_mul, Nat.add_zero] at hpack
  rw [fieldOfBits, List.foldl_map, hpack, BitVec.getLsbD_ofBool]
  simp

@[simp] theorem length_alphaFields (msbFirst : Bool) (text : List Byte) :
    (alphaFields msbFirst text).length = (7 * text.length + 19) / 20 := by
  simp [alphaFields]

theorem alphaFields_getD (msbFirst : Bool) (text : List Byte) {k : Nat} (hk : k < (7 * text.length + 19) / 20) :
    (alphaFields msbFirst text).getD k 0 =
      fieldOfBits ((List.range 20).map fun j => (bitStream msbFirst text).getD (20 * k + j) false) := by
  simp [alphaFields, List.getD_eq_getElem?_getD, hk]

/-- Settles O18: a field is 20 bits of the stream, and a bit of the stream is a bit of a character. -/
theorem alphaFieldBits : Obligations.AlphaFieldBits := by
  intro msbFirst text
  refine ⟨length_alphaFields msbFirst text, fun k j hk hj => ⟨?_, fun _ => rfl⟩⟩
  rw [alphaFields_getD msbFirst text hk, fieldOfBits_getLsbD _ hj]
  exact bitStream_getD msbFirst text (20 * k + j)

/-! ### BCD fields (41_framer R135 to R137) -/

/-- The code at a position of the fields: past the end of the text the pad (41_framer R137). -/
def codeAt (p : Params) (text : List Byte) (n : Nat) : BitVec 4 := (text.map (bcdMap p)).getD n bcdPad

theorem codeAt_eq (p : Params) (text : List Byte) (n : Nat) :
    codeAt p text n = if n < text.length then bcdMap p (text.getD n 0) else 0xC := by
  by_cases hn : n < text.length
  · simp [codeAt, hn]
  · simp [codeAt, hn, bcdPad]

@[simp] theorem length_bcdFields (p : Params) (text : List Byte) :
    (bcdFields p text).length = (text.length + 4) / 5 := by
  simp [bcdFields]

theorem bcdFields_getD (p : Params) (text : List Byte) {k : Nat} (hk : k < (text.length + 4) / 5) :
    (bcdFields p text).getD k 0 =
      (List.range 5).foldl
        (fun (d : DataField) j => (d <<< 4) ||| (bcdNibble p (codeAt p text (5 * k + j))).zeroExtend 20) 0 := by
  rw [bcdFields, List.getD_eq_getElem?_getD, List.getElem?_map, List.getElem?_range hk]
  rfl

/-- Code position `j` of a field, bit by bit from its most significant place down. -/
theorem bcdFields_getLsbD (p : Params) (text : List Byte) {k j i : Nat} (hk : k < (text.length + 4) / 5) (hj : j < 5)
    (hi : i < 4) :
    ((bcdFields p text).getD k 0).getLsbD (19 - 4 * j - i) =
      (bcdNibble p (codeAt p text (5 * k + j))).getLsbD (3 - i) := by
  rw [bcdFields_getD p text hk, show 19 - 4 * j - i = 4 * (5 - 1 - j) + (3 - i) by omega]
  exact getLsbD_packed_range (fun j => bcdNibble p (codeAt p text (5 * k + j))) hj (by omega) (by omega)

theorem bcdNibble_msbFirst {p : Params} (h : p.bcdBitOrder = .msbFirst) (n : BitVec 4) : bcdNibble p n = n := by
  rw [bcdNibble, h]

theorem bcdNibble_lsbFirst {p : Params} (h : p.bcdBitOrder = .lsbFirst) (n : BitVec 4) {i : Nat} (hi : i < 4) :
    (bcdNibble p n).getLsbD (3 - i) = n.getLsbD i := by
  have hreverse : ∀ n : BitVec 4, ∀ i < 4,
      (BitVec.ofBool (n.getLsbD 0) ++ BitVec.ofBool (n.getLsbD 1) ++ BitVec.ofBool (n.getLsbD 2)
        ++ BitVec.ofBool (n.getLsbD 3)).getLsbD (3 - i) = n.getLsbD i := by decide
  rw [bcdNibble, h]
  exact hreverse n i hi

theorem bcdMap_digit (p : Params) {n : Nat} (hn : n < 10) : bcdMap p (0x30 + BitVec.ofNat 8 n) = BitVec.ofNat 4 n := by
  have hdigits : ∀ n < 10,
      ((0x30 : Byte) ≤ 0x30 + BitVec.ofNat 8 n ∧ 0x30 + BitVec.ofNat 8 n ≤ (0x39 : Byte)) ∧
      (0x30 + BitVec.ofNat 8 n : Byte).extractLsb' 0 4 = BitVec.ofNat 4 n := by decide
  obtain ⟨hrange, hcode⟩ := hdigits n hn
  rw [bcdMap, if_pos hrange, hcode]

theorem bcdMap_space (p : Params) : bcdMap p 0x20 = 0xC := rfl

/-- Beside the digits and the space the configuration's list decides (41_framer R135; log 6). -/
theorem bcdMap_other (p : Params) {c : Byte} (hdigit : c < 0x30 ∨ 0x39 < c) (hspace : c ≠ 0x20) :
    bcdMap p c = (p.bcdExtra.lookup c).getD 0xF := by
  have hno : ¬(0x30 ≤ c ∧ c ≤ 0x39) := by
    rw [not_and_or, BitVec.not_le, BitVec.not_le]
    exact hdigit
  rw [bcdMap, if_neg hno, if_neg hspace]

/-- Settles O19: a field is five codes, each in the order of the configuration; the map's codes case by case. -/
theorem bcdFieldCodes : Obligations.BcdFieldCodes := by
  intro p
  refine ⟨fun text => ⟨length_bcdFields p text, fun k j i hk hj hi => ?_⟩, fun n hn => bcdMap_digit p hn,
    bcdMap_space p, fun c hdigit hspace => ⟨fun n hn => ?_, fun hnone => ?_⟩, fun _ _ => rfl⟩
  · rw [bcdFields_getLsbD p text hk hj hi, codeAt_eq]
    cases horder : p.bcdBitOrder with
    | lsbFirst => exact bcdNibble_lsbFirst horder _ hi
    | msbFirst => rw [bcdNibble_msbFirst horder]
  · rw [bcdMap_other p hdigit hspace, hn, Option.getD_some]
  · have hlookup : p.bcdExtra.lookup c = none :=
      List.lookup_eq_none_iff.2 fun e he => bne_iff_ne.2 (hnone e he).symm
    rw [bcdMap_other p hdigit hspace, hlookup, Option.getD_none]

end Sys2Proof.Machine
end

section
/-! SUPPORT. Where the fr unit puts its words (41_framer R140 to R145): any list of words laid into slots with a SYNC
after every slot 15, and a transmission as such a layout behind its preamble. -/

namespace Sys2Proof.Machine

/-! ### Words in slots (41_framer R140) -/

/-- The words laid into slots from `pos` on, with a SYNC after each one that fills slot 15. -/
def syncAfter : List Word → Nat → List Word
  | [], _ => []
  | x :: xs, pos => if pos + 1 = 16 then x :: syncWord :: syncAfter xs 0 else x :: syncAfter xs (pos + 1)

/-- `encodeText`'s loop lays its message words so. -/
theorem interleave_eq_syncAfter (ds : List DataField) (pos : Nat) :
    interleave ds pos = syncAfter (ds.map messageWord) pos := by
  induction ds generalizing pos with
  | nil => rfl
  | cons d ds ih => rw [interleave, List.map_cons, syncAfter, ih, ih]

/-- The words of one batch have no SYNC among them. -/
theorem syncAfter_of_fits {xs : List Word} {pos : Nat} (h : pos + xs.length < 16) : syncAfter xs pos = xs := by
  induction xs generalizing pos with
  | nil => rfl
  | cons x xs ih =>
    rw [List.length_cons] at h
    rw [syncAfter, if_neg (by omega), ih (by omega)]

/-- Words that end in slot 15 are followed by one SYNC. -/
theorem syncAfter_of_fills {xs : List Word} {pos : Nat} (hpos : pos < 16) (h : pos + xs.length = 16) :
    syncAfter xs pos = xs ++ [syncWord] := by
  induction xs, pos using syncAfter.induct with
  | case1 pos => exact absurd h hpos.ne
  | case2 x xs pos hfull ih =>
    rw [List.length_cons] at h
    obtain rfl : xs = [] := List.eq_nil_of_length_eq_zero (by omega)
    rw [syncAfter, if_pos hfull]
    rfl
  | case3 x xs pos hfree ih =>
    rw [List.length_cons] at h
    rw [syncAfter, if_neg hfree, ih (by omega) (by omega), List.cons_append]

/-- A list laid after another goes on in the slot where that one ends. -/
theorem syncAfter_append (xs ys : List Word) {pos : Nat} (hpos : pos < 16) :
    syncAfter (xs ++ ys) pos = syncAfter xs pos ++ syncAfter ys ((pos + xs.length) % 16) := by
  induction xs, pos using syncAfter.induct with
  | case1 pos => rw [List.nil_append, List.length_nil, Nat.add_zero, Nat.mod_eq_of_lt hpos, syncAfter, List.nil_append]
  | case2 x xs pos hfull ih =>
    have hslot : (pos + (xs.length + 1)) % 16 = (0 + xs.length) % 16 := by omega
    rw [List.cons_append, syncAfter, syncAfter, if_pos hfull, if_pos hfull, ih (by decide), List.length_cons, hslot]
    rfl
  | case3 x xs pos hfree ih =>
    have hslot : pos + (xs.length + 1) = pos + 1 + xs.length := by omega
    rw [List.cons_append, syncAfter, syncAfter, if_neg hfree, if_neg hfree, ih (by omega), List.length_cons, hslot]
    rfl

theorem length_syncAfter (xs : List Word) {pos : Nat} (hpos : pos < 16) :
    (syncAfter xs pos).length = xs.length + (pos + xs.length) / 16 := by
  induction xs, pos using syncAfter.induct with
  | case1 pos => rw [syncAfter, List.length_nil]; omega
  | case2 x xs pos hfull ih =>
    rw [syncAfter, if_pos hfull, List.length_cons, List.length_cons, List.length_cons, ih (by decide)]
    omega
  | case3 x xs pos hfree ih =>
    rw [syncAfter, if_neg hfree, List.length_cons, List.length_cons, ih (by omega)]
    omega

/-- What stands behind the first `k` words and the SYNCs of the batches that they filled. -/
theorem drop_syncAfter (xs : List Word) {pos k : Nat} (hpos : pos < 16) (hk : k ≤ xs.length) :
    (syncAfter xs pos).drop (k + (pos + k) / 16) = syncAfter (xs.drop k) ((pos + k) % 16) := by
  have htake : (xs.take k).length = k := List.length_take_of_le hk
  have hsplit := syncAfter_append (xs.take k) (xs.drop k) hpos
  rw [List.take_append_drop, htake] at hsplit
  rw [hsplit]
  exact List.drop_left' (by rw [length_syncAfter _ hpos, htake])

theorem head?_syncAfter (xs : List Word) (pos : Nat) : (syncAfter xs pos).head? = xs.head? := by
  cases xs with
  | nil => rfl
  | cons x xs => rw [syncAfter]; split <;> rfl

theorem syncAfter_word (xs : List Word) {pos k : Nat} (hpos : pos < 16) (hk : k < xs.length) :
    (syncAfter xs pos)[k + (pos + k) / 16]? = xs[k]? := by
  rw [← List.head?_drop, drop_syncAfter xs hpos hk.le, head?_syncAfter, List.head?_drop]

/-- A SYNC stands behind word `k` if that fills slot 15. -/
theorem syncAfter_sync (xs : List Word) {pos k : Nat} (hpos : pos < 16) (hk : k < xs.length)
    (hslot : (pos + k + 1) % 16 = 0) : (syncAfter xs pos)[k + (pos + k) / 16 + 1]? = some syncWord := by
  rw [← List.getElem?_drop, drop_syncAfter xs hpos hk.le, List.drop_eq_getElem_cons hk,
    show (pos + k) % 16 = 15 by omega]
  rfl

/-- The entries of a list that are not at the head of a 17-word batch, the first one having number `j`. -/
def outsideHeads (ws : List Word) (j : Nat) : List Word :=
  ((ws.zipIdx j).filter fun c => c.2 % 17 ≠ 0).map Prod.fst

theorem outsideHeads_cons_kept {j : Nat} (h : j % 17 ≠ 0) (x : Word) (ws : List Word) :
    outsideHeads (x :: ws) j = x :: outsideHeads ws (j + 1) := by
  simp [outsideHeads, h]

theorem outsideHeads_cons_head {j : Nat} (h : j % 17 = 0) (x : Word) (ws : List Word) :
    outsideHeads (x :: ws) j = outsideHeads ws (j + 1) := by
  simp [outsideHeads, h]

theorem outsideHeads_append (vs ws : List Word) (j : Nat) :
    outsideHeads (vs ++ ws) j = outsideHeads vs j ++ outsideHeads ws (j + vs.length) := by
  simp [outsideHeads, List.zipIdx_append]

/-- The SYNCs stand at the batches' heads, so without the heads the words are left. -/
theorem outsideHeads_syncAfter (xs : List Word) {pos j : Nat} (hpos : pos < 16) (hj : j % 17 = pos + 1) :
    outsideHeads (syncAfter xs pos) j = xs := by
  induction xs, pos using syncAfter.induct generalizing j with
  | case1 => rfl
  | case2 x xs pos hfull ih =>
    rw [syncAfter, if_pos hfull, outsideHeads_cons_kept (by omega), outsideHeads_cons_head (by omega),
      ih (by decide) (by omega)]
  | case3 x xs pos hfree ih =>
    rw [syncAfter, if_neg hfree, outsideHeads_cons_kept (by omega), ih (by omega) (by omega)]

/-! ### encodeText (41_framer R140) -/

theorem encodeText_eq_syncAfter (p : Params) (text : List Byte) (func : BitVec 2) (msbFirst : Bool) (pos : Nat) :
    encodeText p text func msbFirst pos = syncAfter ((dataFields p func msbFirst text).map messageWord) pos :=
  interleave_eq_syncAfter _ _

theorem length_encodeText (p : Params) (text : List Byte) (func : BitVec 2) (msbFirst : Bool) {pos : Nat}
    (hpos : pos ≤ 15) :
    (encodeText p text func msbFirst pos).length =
      (dataFields p func msbFirst text).length + (pos + (dataFields p func msbFirst text).length) / 16 := by
  rw [encodeText_eq_syncAfter, length_syncAfter _ (by omega), List.length_map]

/-- Settles O20, by the places of the words and SYNCs of any list laid into slots. -/
theorem encodeTextPlacesSync : Obligations.EncodeTextPlacesSync := by
  intro p text func msbFirst pos hpos
  refine ⟨length_encodeText p text func msbFirst hpos, fun k d hd => ?_⟩
  have hk : k < (dataFields p func msbFirst text).length := (List.getElem?_eq_some_iff.1 hd).1
  rw [encodeText_eq_syncAfter]
  refine ⟨?_, syncAfter_sync _ (by omega) (by simpa using hk)⟩
  rw [syncAfter_word _ (by omega) (by simpa using hk), List.getElem?_map, hd]
  rfl

/-! ### A batch part (41_framer R142, R143) -/

/-- The number of batches of a transmission whose address word follows `off` IDLEs and that has `m` message words: every
slot up to the end-of-message IDLE counts (41_framer R144). -/
def batchCount (off m : Nat) : Nat := (off + m + 2 + 15) / 16

/-- The words of the slots of a transmission: alignment IDLEs, address word, message words, IDLEs to the end. -/
def slotWords (off : Nat) (addr : Word) (msgs : List Word) : List Word :=
  List.replicate off idleWord ++ [addr] ++ msgs ++
    List.replicate (16 * batchCount off msgs.length - (off + 1 + msgs.length)) idleWord

/-- The batch part of `encodeTransmission`: everything but the preamble (41_framer R142). -/
def batchPart (off : Nat) (addr : Word) (msgs : List Word) : List Word :=
  let batch := [syncWord] ++ List.replicate off idleWord ++ [addr] ++ syncAfter msgs (off + 1) ++ [idleWord]
  batch ++ List.replicate ((17 - batch.length % 17) % 17) idleWord

section
variable (off : Nat) (addr : Word) (msgs : List Word)

theorem length_slotWords : (slotWords off addr msgs).length = 16 * batchCount off msgs.length := by
  simp only [slotWords, batchCount, List.length_append, List.length_replicate, List.length_singleton]
  omega

/-- The IDLEs behind the message words end in slot 15. -/
theorem syncAfter_fill (m : Nat) :
    syncAfter (List.replicate (16 * batchCount off m - (off + 1 + m)) idleWord) ((off + 1 + m) % 16) =
      List.replicate (16 * batchCount off m - (off + 1 + m)) idleWord ++ [syncWord] := by
  refine syncAfter_of_fills (Nat.mod_lt _ (by decide)) ?_
  rw [List.length_replicate, batchCount]
  omega

variable {off : Nat} (hoff : off ≤ 14)
include hoff

/-- The end-of-message IDLE and the padding together fill the last batch (41_framer R143). -/
theorem fill_eq_padding :
    16 * batchCount off msgs.length - (off + 1 + msgs.length) =
      1 + (17 - ([syncWord] ++ List.replicate off idleWord ++ [addr] ++ syncAfter msgs (off + 1) ++
        [idleWord]).length % 17) % 17 := by
  simp only [batchCount, length_syncAfter msgs (show off + 1 < 16 by omega), List.length_append, List.length_replicate,
    List.length_singleton]
  omega

/-- The batch part is the layout of the slots' words, with the SYNC that would open another batch moved to the front. -/
theorem batchPart_append_sync :
    batchPart off addr msgs ++ [syncWord] = syncWord :: syncAfter (slotWords off addr msgs) 0 := by
  have hhead : syncAfter (List.replicate off idleWord ++ [addr]) 0 = List.replicate off idleWord ++ [addr] :=
    syncAfter_of_fits (by
      rw [List.length_append, List.length_replicate, List.length_singleton]
      omega)
  rw [slotWords, syncAfter_append _ _ (by decide), syncAfter_append _ _ (by decide), hhead]
  have hslot : (0 + (List.replicate off idleWord ++ [addr]).length) % 16 = off + 1 := by
    rw [List.length_append, List.length_replicate, List.length_singleton]
    omega
  have hend : (0 + (List.replicate off idleWord ++ [addr] ++ msgs).length) % 16 = (off + 1 + msgs.length) % 16 := by
    rw [List.length_append, List.length_append, List.length_replicate, List.length_singleton, Nat.zero_add]
  rw [hslot, hend, syncAfter_fill, fill_eq_padding addr msgs hoff, List.replicate_add]
  simp [batchPart]

theorem length_batchPart : (batchPart off addr msgs).length = 17 * batchCount off msgs.length := by
  have hlen := congrArg List.length (batchPart_append_sync addr msgs hoff)
  rw [List.length_append, List.length_cons, List.length_cons, List.length_nil, length_syncAfter _ (by decide),
    length_slotWords] at hlen
  omega

/-- Any index of the batch part, read in the layout of the slots' words. -/
theorem batchPart_getElem? {i : Nat} (hi : i < 17 * batchCount off msgs.length) :
    (batchPart off addr msgs)[i]? = (syncWord :: syncAfter (slotWords off addr msgs) 0)[i]? := by
  rw [← batchPart_append_sync addr msgs hoff, List.getElem?_append_left (by rwa [length_batchPart addr msgs hoff])]

/-- Every batch begins with a SYNC. -/
theorem batchPart_head {b : Nat} (hb : b < batchCount off msgs.length) :
    (batchPart off addr msgs)[17 * b]? = some syncWord := by
  rw [batchPart_getElem? addr msgs hoff (by omega)]
  cases b with
  | zero => rfl
  | succ b =>
    have hk : 16 * b + 15 < (slotWords off addr msgs).length := by rw [length_slotWords]; omega
    have hsync := syncAfter_sync _ (show 0 < 16 by decide) hk (by omega)
    rwa [show 16 * b + 15 + (0 + (16 * b + 15)) / 16 + 1 = 17 * b + 16 by omega] at hsync

/-- Slot `t` of batch `b`. -/
theorem batchPart_slot {b t : Nat} (hb : b < batchCount off msgs.length) (ht : t < 16) :
    (batchPart off addr msgs)[17 * b + 1 + t]? = (slotWords off addr msgs)[16 * b + t]? := by
  have hk : 16 * b + t < (slotWords off addr msgs).length := by rw [length_slotWords]; omega
  rw [batchPart_getElem? addr msgs hoff (by omega), ← syncAfter_word _ (show 0 < 16 by decide) hk,
    show 17 * b + 1 + t = 16 * b + t + (0 + (16 * b + t)) / 16 + 1 by omega, List.getElem?_cons_succ]

theorem outsideHeads_batchPart : outsideHeads (batchPart off addr msgs) 0 = slotWords off addr msgs := by
  have hlast : outsideHeads [syncWord] (0 + (batchPart off addr msgs).length) = [] := by
    rw [length_batchPart addr msgs hoff, outsideHeads_cons_head (by omega)]
    rfl
  calc outsideHeads (batchPart off addr msgs) 0
      = outsideHeads (batchPart off addr msgs ++ [syncWord]) 0 := by
        rw [outsideHeads_append, hlast, List.append_nil]
    _ = outsideHeads (syncAfter (slotWords off addr msgs) 0) 1 := by
        rw [batchPart_append_sync addr msgs hoff, outsideHeads_cons_head rfl]
    _ = slotWords off addr msgs := outsideHeads_syncAfter _ (by decide) rfl

end

/-! ### The words of the slots -/

theorem slotWords_before {k : Nat} (addr : Word) (msgs : List Word) {off : Nat} (hk : k < off) :
    (slotWords off addr msgs)[k]? = some idleWord := by
  simp [slotWords, List.getElem?_append, hk]

theorem slotWords_address (addr : Word) (msgs : List Word) (off : Nat) :
    (slotWords off addr msgs)[off]? = some addr := by
  simp [slotWords]

/-- A slot holds an IDLE, or it is the address word's, or it holds a message word. -/
theorem slotWords_cases {off k : Nat} {addr x : Word} {msgs : List Word} (h : (slotWords off addr msgs)[k]? = some x) :
    x = idleWord ∨ k = off ∨ x ∈ msgs := by
  rcases Nat.lt_trichotomy k off with hlt | heq | hgt
  · rw [slotWords_before addr msgs hlt] at h
    exact .inl (Option.some.inj h).symm
  · exact .inr (.inl heq)
  · have hlen : (List.replicate off idleWord ++ [addr]).length ≤ k := by
      rw [List.length_append, List.length_replicate]
      exact hgt
    rw [slotWords, List.append_assoc, List.getElem?_append_right hlen] at h
    obtain hmsg | hidle := List.mem_append.1 (List.mem_of_getElem? h)
    · exact .inr (.inr hmsg)
    · exact .inl (List.eq_of_mem_replicate hidle)

theorem batchPart_last (off : Nat) (addr : Word) (msgs : List Word) :
    (batchPart off addr msgs).getLast? = some idleWord := by
  rw [batchPart, List.getLast?_append, List.getLast?_concat, List.getLast?_replicate]
  split <;> rfl

/-! ### encodeTransmission (41_framer R142 to R145) -/

/-- The words before the first SYNC (41_framer R142). -/
def preamble (rep : Word) : List Word := if rep = 0 then List.replicate 18 preambleWord else []

theorem preamble_eq_replicate (rep : Word) :
    preamble rep = List.replicate (if rep = 0 then 18 else 0) preambleWord := by
  rw [preamble]
  split <;> rfl

theorem addressOffset_eq (a : Body) : addressOffset a = a.toNat % 8 * 2 := by
  rw [addressOffset, BitVec.toNat_and]
  exact congrArg (· * 2) (Nat.and_two_pow_sub_one_eq_mod a.toNat 3)

section
variable (p : Params) (r : Word) (a : Body) (func : BitVec 2) (text : List Byte) (msbFirst : Bool)

/-- A transmission is its preamble and its batch part. -/
theorem encodeTransmission_words :
    (encodeTransmission p r a func text msbFirst).1 =
      preamble r ++ batchPart (a.toNat % 8 * 2) (cw (addrBody a func))
        ((dataFields p func msbFirst text).map messageWord) := by
  rw [← addressOffset_eq, encodeTransmission, encodeText_eq_syncAfter, List.append_assoc]
  rfl

theorem encodeTransmission_textwords :
    (encodeTransmission p r a func text msbFirst).2 =
      (dataFields p func msbFirst text).length +
        (a.toNat % 8 * 2 + 1 + (dataFields p func msbFirst text).length) / 16 := by
  rw [← addressOffset_eq]
  exact length_encodeText p text func msbFirst (by rw [addressOffset_eq]; omega)

theorem length_encodeTransmission :
    (encodeTransmission p r a func text msbFirst).1.length =
      (if r = 0 then 18 else 0) +
        17 * ((a.toNat % 8 * 2 + (dataFields p func msbFirst text).length + 2 + 15) / 16) := by
  rw [encodeTransmission_words, List.length_append, length_batchPart _ _ (by omega), preamble_eq_replicate,
    List.length_replicate, List.length_map]
  rfl

/-- Behind the preamble a transmission is its batch part. -/
theorem encodeTransmission_getElem? (i : Nat) :
    (encodeTransmission p r a func text msbFirst).1[(if r = 0 then 18 else 0) + i]? =
      (batchPart (a.toNat % 8 * 2) (cw (addrBody a func))
        ((dataFields p func msbFirst text).map messageWord))[i]? := by
  rw [encodeTransmission_words, preamble_eq_replicate, List.getElem?_append_right (by simp), List.length_replicate,
    Nat.add_sub_cancel_left]

theorem encodeTransmission_head (i : Nat)
    (hi : (if r = 0 then 18 else 0) + 17 * i < (encodeTransmission p r a func text msbFirst).1.length) :
    (encodeTransmission p r a func text msbFirst).1[(if r = 0 then 18 else 0) + 17 * i]? = some syncWord := by
  rw [length_encodeTransmission] at hi
  rw [encodeTransmission_getElem?]
  refine batchPart_head _ _ (by omega) ?_
  rw [List.length_map, batchCount]
  omega

/-- A word of a transmission that is not the head of a batch (41_framer R144). -/
theorem encodeTransmission_slot {i : Nat} {x : Word} (hslot : i % 17 ≠ 0)
    (hx : (encodeTransmission p r a func text msbFirst).1[(if r = 0 then 18 else 0) + i]? = some x) :
    x = idleWord ∨ i = 1 + a.toNat % 8 * 2 ∨ ∃ d ∈ dataFields p func msbFirst text, x = messageWord d := by
  rw [encodeTransmission_getElem?] at hx
  have hi := (List.getElem?_eq_some_iff.1 hx).1
  rw [length_batchPart _ _ (by omega)] at hi
  rw [show i = 17 * (i / 17) + 1 + (i % 17 - 1) by omega,
    batchPart_slot _ _ (by omega) (by omega) (by omega)] at hx
  obtain hidle | haddr | hmsg := slotWords_cases hx
  · exact .inl hidle
  · exact .inr (.inl (by omega))
  · obtain ⟨d, hd, hdx⟩ := List.mem_map.1 hmsg
    exact .inr (.inr ⟨d, hd, hdx.symm⟩)

theorem encodeTransmission_address :
    (encodeTransmission p r a func text msbFirst).1[(if r = 0 then 18 else 0) + 1 + a.toNat % 8 * 2]? =
      some (cw (addrBody a func)) := by
  have hslot := batchPart_slot (cw (addrBody a func)) ((dataFields p func msbFirst text).map messageWord)
    (show a.toNat % 8 * 2 ≤ 14 by omega) (b := 0) (t := a.toNat % 8 * 2) (by rw [batchCount]; omega) (by omega)
  rw [Nat.mul_zero, Nat.zero_add, Nat.zero_add, slotWords_address] at hslot
  rw [Nat.add_assoc, encodeTransmission_getElem?, hslot]

theorem encodeTransmission_last : (encodeTransmission p r a func text msbFirst).1.getLast? = some idleWord := by
  rw [encodeTransmission_words, List.getLast?_append, batchPart_last]
  rfl

end

/-- Settles O21: the batches' heads, the address word's slot and the last slot of the layout, behind the preamble. -/
theorem transmissionStructure : Obligations.TransmissionStructure := by
  intro p r a func text msbFirst _
  refine ⟨length_encodeTransmission p r a func text msbFirst, encodeTransmission_head p r a func text msbFirst,
    encodeTransmission_address p r a func text msbFirst, fun i x hi hslot hx => ?_,
    encodeTransmission_last p r a func text msbFirst, fun hr => ?_⟩
  · obtain ⟨k, rfl⟩ := Nat.exists_eq_add_of_le hi
    rw [Nat.add_sub_cancel_left] at hslot
    obtain hidle | haddr | hmsg := encodeTransmission_slot p r a func text msbFirst hslot hx
    · exact .inl hidle
    · exact .inr (.inl (by rw [haddr, Nat.add_assoc]))
    · exact .inr (.inr hmsg)
  · rw [encodeTransmission_words, preamble, if_neg hr]
    rfl

/-- Settles O22: without the preamble and the batches' heads a transmission is the words of its slots. -/
theorem transmissionSlots : Obligations.TransmissionSlots := by
  intro p r a func text msbFirst _
  refine ⟨by rintro rfl; rfl, by rintro rfl; rfl, by rintro rfl; rfl,
    length_encodeTransmission p r a func text msbFirst, ?_, encodeTransmission_head p r a func text msbFirst, ?_,
    encodeTransmission_textwords p r a func text msbFirst⟩
  · rw [encodeTransmission_words, preamble_eq_replicate]
    exact List.take_left' List.length_replicate
  · rw [encodeTransmission_words, preamble_eq_replicate, List.drop_left' List.length_replicate]
    refine (outsideHeads_batchPart _ _ (by omega)).trans ?_
    rw [slotWords, List.length_map]
    rfl

/-! ### Capacity (41_framer R145) -/

/-- No function has more data fields than the alphanumeric one. -/
theorem length_dataFields_le (p : Params) (func : BitVec 2) (msbFirst : Bool) (text : List Byte) :
    (dataFields p func msbFirst text).length ≤ (7 * text.length + 19) / 20 := by
  unfold dataFields
  split
  · rw [length_bcdFields]
    omega
  · rw [length_alphaFields]
  · exact Nat.zero_le _

/-- Settles O23: both lengths grow with the number of data fields, which the alphanumeric function makes largest. -/
theorem longestOutputs : Obligations.LongestOutputs := by
  refine ⟨fun p r a func text o pos htext hpos => ?_, fun p a text o htext ha => ?_, by decide, by decide⟩
  · have hfields := length_dataFields_le p func o text
    rw [txtCap] at htext
    rw [length_encodeTransmission, length_encodeText p text func o hpos]
    split <;> omega
  · have hfields : (dataFields p 3 o text).length = 359 := by
      rw [show dataFields p 3 o text = alphaFields o text from rfl, length_alphaFields, htext]
      rfl
    rw [length_encodeTransmission, length_encodeText p text 3 o (by decide), hfields, ha]
    exact ⟨rfl, rfl⟩

end Sys2Proof.Machine
end

section
/-! SUPPORT. OUT as words and as bytes (41_framer R147; 20_memory R65), and the ops FR_TEXT and FR_FRAME (R150 to R152):
what each answers in an idle state. -/

namespace Sys2Proof.Machine

/-! ### Words as bytes (41_framer R147) -/

theorem length_wordsToBytes (ws : List Word) : (wordsToBytes ws).length = 4 * ws.length :=
  length_flatMap_blocks length_bytesOfWord ws

theorem bytesOfWord_getElem? (w : Word) {j : Nat} (hj : j < 4) :
    (bytesOfWord w)[j]? = some (w.extractLsb' (24 - 8 * j) 8) := by
  interval_cases j <;> rfl

theorem wordsToBytes_getElem? (ws : List Word) (k : Nat) {j : Nat} (hj : j < 4) :
    (wordsToBytes ws)[4 * k + j]? = ws[k]?.map fun w => w.extractLsb' (24 - 8 * j) 8 := by
  rw [wordsToBytes, getElem?_flatMap_blocks length_bytesOfWord ws k hj, Option.map_eq_bind]
  exact congrArg _ (funext fun w => bytesOfWord_getElem? w hj)

theorem bytesOfWord_append (x y z w : Byte) : bytesOfWord (x ++ y ++ z ++ w) = [x, y, z, w] := by
  have h24 : (x ++ y ++ z ++ w).extractLsb' 24 8 = x := by
    rw [BitVec.extractLsb'_append_eq_of_le (by decide), BitVec.extractLsb'_append_eq_of_le (by decide)]
    exact BitVec.extractLsb'_append_eq_left
  have h16 : (x ++ y ++ z ++ w).extractLsb' 16 8 = y := by
    rw [BitVec.extractLsb'_append_eq_of_le (by decide), BitVec.extractLsb'_append_eq_of_le (by decide)]
    exact BitVec.extractLsb'_append_eq_right
  have h8 : (x ++ y ++ z ++ w).extractLsb' 8 8 = z := by
    rw [BitVec.extractLsb'_append_eq_of_le (by decide)]
    exact BitVec.extractLsb'_append_eq_right
  rw [bytesOfWord, h24, h16, h8, BitVec.extractLsb'_append_eq_right]

theorem Memory.readBytes_add (m : Memory) (a n k : Nat) :
    m.readBytes a (n + k) = m.readBytes a n ++ m.readBytes (a + n) k := by
  simp [Memory.readBytes, List.range_add, Nat.add_assoc]

/-- The byte view of a word of memory is its four bytes. -/
theorem Memory.bytesOfWord_readWord (m : Memory) (a : Nat) : bytesOfWord (m.readWord a) = m.readBytes a 4 :=
  bytesOfWord_append ..

theorem outWords_succ (s : State) (n : Nat) :
    outWords s (n + 1) = outWords s n ++ [s.mem.readWord (outBase + 4 * n)] := by
  simp [outWords, List.range_succ]

/-- The payload of AT_RAW is the byte view of OUT's words (20_memory R65). -/
theorem payloadBytes_eq_wordsToBytes (s : State) (n : Nat) :
    payloadBytes s 0 (4 * n) = wordsToBytes (outWords s n) := by
  induction n with
  | zero => rfl
  | succ n ih =>
    rw [payloadBytes, Nat.add_zero] at ih ⊢
    rw [Nat.mul_succ, Memory.readBytes_add, ih, ← Memory.bytesOfWord_readWord, outWords_succ, wordsToBytes,
      wordsToBytes, List.flatMap_append, List.flatMap_singleton]

/-- Settles O27: words are blocks of four bytes, most significant first, in the buffer too. -/
theorem payloadIsBigEndian : Obligations.PayloadIsBigEndian := by
  refine ⟨length_wordsToBytes, fun ws k j hj => wordsToBytes_getElem? ws k hj, payloadBytes_eq_wordsToBytes, ?_⟩
  rw [wordsToBytes, List.flatMap_replicate]
  exact List.flatten_replicate_replicate (m := 4)

/-! ### Words written to OUT -/

/-- A written word reads back. -/
theorem Memory.readWord_write_words (m : Memory) (a : Nat) (ws : List Word) {k : Nat} (hk : k < ws.length) :
    (m.write a (wordsToBytes ws)).readWord (a + 4 * k) = ws.getD k 0 := by
  have hbyte : ∀ j < 4, (m.write a (wordsToBytes ws)).read (a + 4 * k + j) =
      (ws.getD k 0).extractLsb' (24 - 8 * j) 8 := by
    intro j hj
    rw [Memory.read_write_inside (by omega) (by rw [length_wordsToBytes]; omega), List.getD_eq_getElem?_getD,
      show a + 4 * k + j - a = 4 * k + j by omega, wordsToBytes_getElem? ws k hj, List.getD_eq_getElem?_getD,
      List.getElem?_eq_getElem hk]
    rfl
  rw [Memory.readWord, ← Nat.add_zero (a + 4 * k), hbyte 0 (by decide), hbyte 1 (by decide), hbyte 2 (by decide),
    hbyte 3 (by decide)]
  exact append_bytesOfWord _

/-! ### The ops' output and refusals in an idle state (41_framer R150 to R152) -/

/-- The output of an fr op: OUT, OUT_LEN and FR_TEXTWORDS. -/
def withFrame (ws : List Word) (textwords : Nat) (s : State) : State :=
  (s.setMem (s.mem.write outBase (wordsToBytes ws))).setRegs
    { s.regs with outLen := BitVec.ofNat 32 ws.length, frTextwords := BitVec.ofNat 32 textwords }

/-- The counts of a refused fr op. -/
def withoutFrame (s : State) : State := s.setRegs { s.regs with outLen := 0, frTextwords := 0 }

theorem finishFrame_idle {s : State} (hidle : Idle s) (ws : List Word) (n : Nat) :
    finishFrame ws n s = completed .ok (withFrame ws n s) :=
  finish_idle (s := withFrame ws n s) hidle .ok

theorem failEnc_idle {s : State} (hidle : Idle s) : failEnc s = completed .encodingError (withoutFrame s) :=
  finish_idle (s := withoutFrame s) hidle .encodingError

theorem textTooLong_iff {s : State} :
    textTooLong s = true ↔ s.regs.txtLen.toNat > 1024 ∨ s.regs.txtLen > s.regs.txtMax := by
  rw [textTooLong, Bool.or_eq_true, decide_eq_true_iff, decide_eq_true_iff, txtCap]

/-- The checks that both fr ops make (41_framer R150). -/
abbrev TextRefused (s : State) : Prop :=
  s.regs.frCfg.extractLsb' 0 2 = 2 ∨ s.regs.txtLen.toNat > 1024 ∨ s.regs.txtLen > s.regs.txtMax

theorem not_textRefused {s : State} (hfunc : s.regs.frCfg.extractLsb' 0 2 ≠ 2) (hcap : s.regs.txtLen.toNat ≤ 1024)
    (hmax : s.regs.txtLen ≤ s.regs.txtMax) : ¬TextRefused s := by
  rintro (h | h | h)
  exacts [hfunc h, absurd hcap h.not_ge, absurd hmax (BitVec.not_le.2 h)]

theorem textChecks_idle {s : State} (hidle : Idle s) (t : State) :
    (if frFunc s = 2 then failEnc s else if textTooLong s then failEnc s else t) =
      if TextRefused s then completed .encodingError (withoutFrame s) else t := by
  have hrefused : TextRefused s ↔ frFunc s = 2 ∨ textTooLong s = true := by
    rw [textTooLong_iff]
    rfl
  simp only [hrefused, ite_or, failEnc_idle hidle]

/-- The words and the text word count that FR_FRAME asks for (41_framer R151). -/
def frameOutput (s : State) : List Word × Nat :=
  encodeTransmission s.cfg s.regs.frRepeat (frAddress s) (frFunc s) (textOperand s) (frBitOrder s)

theorem exec_frFrame_idle {s : State} (hidle : Idle s) :
    exec .frFrame s = .next (
      if s.regs.frAddr.extractLsb' 21 11 ≠ 0 ∨ TextRefused s then completed .encodingError (withoutFrame s)
      else completed .ok (withFrame (frameOutput s).1 (frameOutput s).2 s)) := by
  rw [exec, execFrFrame, accept_idle hidle.2, textChecks_idle (idle_accepted hidle),
    failEnc_idle (idle_accepted hidle), finishFrame_idle (idle_accepted hidle)]
  exact congrArg Host.Outcome.next (ite_or (s.regs.frAddr.extractLsb' 21 11 ≠ 0) (TextRefused s) _ _).symm

/-- The words that FR_TEXT asks for (41_framer R152). -/
def textOutput (s : State) : List Word :=
  encodeText s.cfg (textOperand s) (frFunc s) (frBitOrder s) s.regs.arg0.toNat

/-- A start position of at most 15 is all of ARG0 (41_framer R152). -/
theorem startPosition_eq {v : Word} (h : v.toNat ≤ 15) : (v.extractLsb' 0 4).toNat = v.toNat := by
  rw [BitVec.extractLsb'_toNat, Nat.shiftRight_zero]
  exact Nat.mod_eq_of_lt (Nat.lt_succ_of_le h)

theorem exec_frText_idle {s : State} (hidle : Idle s) :
    exec .frText s = .next (
      if s.regs.arg0.toNat > 15 then completed .badCommand s
      else if TextRefused s then completed .encodingError (withoutFrame s)
      else completed .ok (withFrame (textOutput s) (textOutput s).length s)) := by
  rw [exec, execFrText, accept_idle hidle.2, textChecks_idle (idle_accepted hidle),
    finish_idle (idle_accepted hidle), finishFrame_idle (idle_accepted hidle)]
  have hcheck : s.regs.arg0 > 15 ↔ s.regs.arg0.toNat > 15 := BitVec.lt_def
  by_cases hpos : s.regs.arg0.toNat > 15
  · rw [if_pos hpos]
    exact congrArg Host.Outcome.next (if_pos (hcheck.2 hpos))
  · rw [if_neg hpos, textOutput, ← startPosition_eq (Nat.not_lt.1 hpos)]
    exact congrArg Host.Outcome.next (if_neg (mt hcheck.1 hpos))

/-! ### The statements -/

/-- What both statements say of OUT after an op's output. -/
theorem withFrame_mem (ws : List Word) (n : Nat) (s : State) :
    (∀ k, k < ws.length → (withFrame ws n s).mem.readWord (0x2000 + 4 * k) = ws.getD k 0) ∧
      ∀ a, a < 0x2000 ∨ 0x2000 + 4 * ws.length ≤ a → (withFrame ws n s).mem.read a = s.mem.read a :=
  ⟨fun _ hk => Memory.readWord_write_words s.mem outBase ws hk, fun _ ha =>
    Memory.read_write_outside (length_wordsToBytes ws ▸ ha)⟩

/-- Settles O24: the op's four checks are one condition, and its output is written to OUT word by word. -/
theorem frFrameResult : Obligations.FrFrameResult := by
  intro s hidle
  refine ⟨fun hrefused => ?_, fun haddr hfunc hcap hmax => ⟨(withFrame (frameOutput s).1 (frameOutput s).2 s).mem,
    (frameOutput s).1, (frameOutput s).2, rfl, ?_, withFrame_mem _ _ s⟩,
    otherWordsRefused (i := .frFrame) hidle (by decide)⟩
  · rw [exec_frFrame_idle hidle, if_pos hrefused]
    rfl
  · have haccepted : ¬(s.regs.frAddr.extractLsb' 21 11 ≠ 0 ∨ TextRefused s) :=
      not_or.2 ⟨not_not.2 haddr, not_textRefused hfunc hcap hmax⟩
    rw [exec_frFrame_idle hidle, if_neg haccepted]
    rfl

/-- Settles O25: as for FR_FRAME, with the start position checked first. -/
theorem frTextResult : Obligations.FrTextResult := by
  intro s hidle
  refine ⟨fun hpos => ?_, fun hpos hrefused => ?_, fun hpos hfunc hcap hmax =>
    ⟨(withFrame (textOutput s) (textOutput s).length s).mem, textOutput s, rfl, ?_, withFrame_mem _ _ s⟩,
    otherWordsRefused (i := .frText) hidle (by decide)⟩
  · rw [exec_frText_idle hidle, if_pos hpos]
  · rw [exec_frText_idle hidle, if_neg hpos.not_gt, if_pos hrefused]
    rfl
  · rw [exec_frText_idle hidle, if_neg hpos.not_gt, if_neg (not_textRefused hfunc hcap hmax)]
    rfl

/-- An FR_FRAME that ends OK has written its output. -/
theorem exec_frFrame_ok {s t : State} (hidle : Idle s) (h : exec .frFrame s = .next t) (hok : t.status.result = .ok) :
    t = completed .ok (withFrame (frameOutput s).1 (frameOutput s).2 s) := by
  rw [exec_frFrame_idle hidle] at h
  cases h
  split at hok
  · cases hok
  · next haccepted => rw [if_neg haccepted]

theorem outWords_withFrame (ws : List Word) (n : Nat) (s : State) {m : Nat} (hm : m ≤ ws.length) :
    outWords (withFrame ws n s) m = ws.take m := by
  have hlen : (outWords (withFrame ws n s) m).length = m := by simp [outWords]
  refine List.ext_getElem (by rw [hlen, List.length_take_of_le hm]) fun k hk _ => ?_
  have hkws : k < ws.length := by omega
  have hword := (withFrame_mem ws n s).1 k hkws
  rw [List.getD_eq_getElem _ _ hkws] at hword
  simpa [outWords, outBase] using hword

/-- Settles O26: what an FR_FRAME that ends OK leaves in OUT is a function of the listed inputs. -/
theorem framerReadsOnlyItsInputs : Obligations.FramerReadsOnlyItsInputs := by
  intro s₁ s₂ t₁ t₂ hidle₁ hidle₂ hcfg hrep haddr hfrCfg htext hexec₁ hexec₂ hok₁ hok₂
  obtain rfl := exec_frFrame_ok hidle₁ hexec₁ hok₁
  obtain rfl := exec_frFrame_ok hidle₂ hexec₂ hok₂
  have houtput : frameOutput s₁ = frameOutput s₂ := by
    rw [frameOutput, frameOutput, frAddress, frAddress, frFunc, frFunc, frBitOrder, frBitOrder, hcfg, hrep, haddr,
      hfrCfg, htext]
  rw [houtput]
  refine ⟨rfl, rfl, ?_⟩
  have hlen : (BitVec.ofNat 32 (frameOutput s₂).1.length).toNat ≤ (frameOutput s₂).1.length := Nat.mod_le _ _
  have hwords (s : State) := outWords_withFrame (frameOutput s₂).1 (frameOutput s₂).2 s hlen
  exact (hwords s₁).trans (hwords s₂).symm

end Sys2Proof.Machine
end

section
/-! SUPPORT. What the at unit's boundaries send, and what any of its events does, said once with the guards under which
it is done: some counting, some bookkeeping, then at most one decision (42_at_sequencer R172 to R217). -/

namespace Sys2Proof.Machine

/-! ### Boundaries without a cancellation (42_at_sequencer R190, R198, R210) -/

theorem startExchange_cancelled {s : State} (h : s.status.cancelPend = true) (k : Kind) (bs : List Byte) :
    startExchange k bs s = finish .cancelled s :=
  if_pos h

theorem beginAttempt_cancelled {s : State} (h : s.status.cancelPend = true) : beginAttempt s = finish .cancelled s :=
  if_pos h

theorem rawChunk_cancelled {s : State} (h : s.status.cancelPend = true) : rawChunk s = finish .cancelled s :=
  if_pos h

/-- The start of an exchange of kind `k` (42_at_sequencer R190). -/
def exchangeStarted (k : Kind) (bs : List Byte) (s : State) : State :=
  exchanging bs (s.setSeq { s.seq with kind := k, st := .xDrain })

theorem startExchange_sends {s : State} (h : s.status.cancelPend = false) (k : Kind) (bs : List Byte) :
    startExchange k bs s = exchangeStarted k bs s :=
  if_neg (by simp [h])

/-- The start of an attempt (42_at_sequencer R198). -/
def attemptStarted (s : State) : State :=
  exchangeStarted .cmd (commandBytes s) (s.setStatus { s.status with attempts := s.status.attempts + 1 })

theorem beginAttempt_sends {s : State} (h : s.status.cancelPend = false) : beginAttempt s = attemptStarted s :=
  by
  rw [beginAttempt, if_neg (by simp [h])]
  exact startExchange_sends (s := s.setStatus { s.status with attempts := s.status.attempts + 1 }) h _ _

/-- The next chunk of the payload (42_at_sequencer R210). -/
def chunkSent (s : State) : State :=
  (s.emit ((payloadBytes s s.seq.rawPos.toNat (chunkSize s)).map .tx ++ [.drainReq])).setSeq
    { s.seq with rawCur := BitVec.ofNat 32 (chunkSize s), st := .rawDrain }

theorem rawChunk_sends {s : State} (h : s.status.cancelPend = false) : rawChunk s = chunkSent s :=
  if_neg (by simp [h])

/-! ### Consuming a byte (42_at_sequencer R179, R181) -/

/-- What consuming a byte may change: the three counters, LINE_OVF, the line and the payload; and the countdown
restarts. -/
structure ConsumeFrame (s t : State) : Prop where
  state : t = { s with
    parser := t.parser
    regs := { s.regs with
      noiseCnt := t.regs.noiseCnt, infoCnt := t.regs.infoCnt, ignCnt := t.regs.ignCnt }
    status := { s.status with lineOvf := t.status.lineOvf } }
  parser : t.parser = { s.parser with
    line := t.parser.line, payload := t.parser.payload, remaining := s.parser.budget, pollTicks := 0, emptyPolls := 0 }

theorem consume_frame (b : Byte) (s : State) : ConsumeFrame s (consume b s).1 := by
  unfold consume consumeByte classify
  repeat' split
  all_goals exact ⟨rfl, rfl⟩

/-- A line of at most LINE_MAX printable bytes, and a payload that was such a line and starts with '+' (the part of
`ParserInv` that holds outside receives too). -/
structure LineInv (p : Parser) : Prop where
  length : p.line.length ≤ lineMax
  printable : ∀ b ∈ p.line, 0x20 ≤ b ∧ b ≤ 0x7E
  payload : ∀ l ∈ p.payload, l.head? = some 0x2B ∧ l.length ≤ lineMax

/-- What a byte does to the line and the payload (42_at_sequencer R179, R181). -/
def LineStep (b : Byte) (p q : Parser) : Prop :=
  (q.line = p.line ∧ q.payload = p.payload) ∨
  (q.line = [] ∧ q.payload = p.payload) ∨
  (q.line = p.line ++ [b] ∧ q.payload = p.payload ∧ (0x20 ≤ b ∧ b ≤ 0x7E) ∧ p.line.length < lineMax) ∨
  (q.line = [] ∧ q.payload = some p.line ∧ p.line.head? = some 0x2B)

theorem classify_lineStep (b : Byte) (l : List Byte) (p : Parser) {s : State} (hl : p.line = l)
    (hs : s.parser.line = [] ∧ s.parser.payload = p.payload) : LineStep b p (classify l s).1.parser := by
  unfold classify
  repeat' split
  · exact .inr (.inl hs)
  · exact .inr (.inl hs)
  · exact .inr (.inl hs)
  · next hplus _ => exact .inr (.inr (.inr ⟨hs.1, congrArg some hl.symm, hl ▸ hplus⟩))
  · exact .inr (.inl hs)
  · exact .inr (.inl hs)

theorem consume_lineStep (b : Byte) (s : State) : LineStep b s.parser (consume b s).1.parser := by
  unfold consume consumeByte
  repeat' split
  · exact .inl ⟨rfl, rfl⟩
  · exact classify_lineStep b _ s.parser rfl ⟨rfl, rfl⟩
  · exact .inl ⟨rfl, rfl⟩
  · exact .inr (.inr (.inl ⟨rfl, rfl, ‹_›, ‹_›⟩))
  · exact .inl ⟨rfl, rfl⟩
  · exact .inr (.inl ⟨rfl, rfl⟩)

theorem consume_lineInv (b : Byte) {s : State} (h : LineInv s.parser) : LineInv (consume b s).1.parser := by
  obtain ⟨hlen, hprint, hpay⟩ := h
  obtain ⟨hl, hp⟩ | ⟨hl, hp⟩ | ⟨hl, hp, hb, hlt⟩ | ⟨hl, hp, hplus⟩ := consume_lineStep b s
  · exact ⟨hl ▸ hlen, hl ▸ hprint, hp ▸ hpay⟩
  · exact ⟨by simp [hl], by simp [hl], hp ▸ hpay⟩
  · refine ⟨by simpa [hl] using hlt, fun x hx => ?_, hp ▸ hpay⟩
    obtain hx | rfl : x ∈ s.parser.line ∨ x = b := by simpa [hl] using hx
    exacts [hprint x hx, hb]
  · exact ⟨by simp [hl], by simp [hl], by simpa [hp] using ⟨hplus, hlen⟩⟩

/-! ### The parts of an event of the at unit -/

/-- The states of an exchange (42_at_sequencer R190 to R193). -/
def isExchange : SeqState → Bool
  | .xDrain | .xSettle | .xRecv => true
  | .idle | .backoff | .rawDrain | .rawPace | .rawSettle | .rawRecv => false

/-- The states from which a receive begins (42_at_sequencer R192, R193, R211). -/
def opensRecv : SeqState → Bool
  | .xDrain | .xSettle | .rawDrain | .rawSettle => true
  | .idle | .xRecv | .backoff | .rawPace | .rawRecv => false

/-- The kinds of the three probe exchanges (42_at_sequencer R195, R197, R201). -/
def isProbe : Kind → Bool
  | .soloProbe | .readyProbe | .retryProbe => true
  | .none | .cmd | .raw => false

/-- A wait of a tick less (42_at_sequencer R193). -/
def waitTick (s : State) : State := s.setSeq { s.seq with waitLeft := s.seq.waitLeft - 1 }

/-- The drained chunk counts as sent (42_at_sequencer R211). -/
def chunkDrained (s : State) : State :=
  (s.setSeq { s.seq with rawPos := s.seq.rawPos + s.seq.rawCur }).setRegs
    { s.regs with rawProgress := s.seq.rawPos + s.seq.rawCur }

/-- The payload timeout is not reached by the next tick (42_at_sequencer R212). -/
def TimeLeft (s : State) : Prop := s.seq.rawElapsed + 1 < s.cfg.payloadTimeoutMs

/-- A receive goes on after its countdown (42_at_sequencer R183). -/
def KeepsReceiving (s : State) : Prop :=
  s.parser.remaining ≠ 0 ∧ ¬(s.cfg.maxEmptyPolls ≠ 0 ∧ s.parser.emptyPolls ≥ s.cfg.maxEmptyPolls)

/-- Events that leave the block in its `st`. -/
inductive Still (s : State) : State → Prop where
  | same : Still s s
  | waits : isWait s.seq.st = true → s.seq.st ≠ .rawPace → s.seq.waitLeft - 1 ≠ 0 → Still s (waitTick s)
  | paces : s.seq.st = .rawPace → TimeLeft s → s.seq.waitLeft - 1 ≠ 0 → Still s (waitTick (countElapsed s))
  | drains : s.seq.st = .rawDrain → TimeLeft s → Still s (countElapsed s)
  | receives : isRecv s.seq.st = true → KeepsReceiving (recvCountdown s) → Still s (recvCountdown s)
  | consumes (b : Byte) : isRecv s.seq.st = true → Still s (consume b s).1
  | queues (b : Byte) : s.rxq.length < s.cfg.rxqCap → Still s (s.setRxq (s.rxq ++ [b]))
  | overflows : Still s s.setRxqOvf
  | ignores : Still s s.setCherrIgn

/-- What an event counts before it is decided what it leads to. -/
inductive Counted (s : State) : State → Prop where
  | nothing : isExchange s.seq.st = true ∨ s.seq.st = .rawRecv → Counted s s
  | wait : isWait s.seq.st = true → s.seq.st ≠ .rawPace → Counted s (waitTick s)
  | pace : s.seq.st = .rawPace → TimeLeft s → Counted s (waitTick (countElapsed s))
  | poll : isRecv s.seq.st = true → Counted s (recvCountdown s)
  | chunk : s.seq.st = .rawDrain → Counted s (chunkDrained s)

/-- The bookkeeping of a receive and of an exchange's end, within an event `e` (42_at_sequencer R178 to R182, R194,
R204 to R206). -/
inductive Booked (e : Event) (s : State) : State → Prop where
  | outcome (o : RxOutcome) : (o = .invalid → e = .chErr) → Booked e s (setOutcome o s)
  | alive : isProbe s.seq.kind = true → Booked e s (aliveUpdate s)
  | response : Booked e s (responseUpdate s)
  | opened : opensRecv s.seq.st = true → (s.seq.st = .rawDrain → s.seq.rawPos = s.seq.rawN) → Booked e s (openRecv s)
  | popped (b : Byte) (q : List Byte) : s.rxq = b :: q → Booked e s (s.setRxq q)
  | consumed (b : Byte) : isRecv s.seq.st = true → Booked e s (consume b s).1

/-- A chain of bookkeeping. -/
abbrev Books (e : Event) : State → State → Prop := Relation.ReflTransGen (Booked e)

theorem Books.keeps {M : State → Prop} {e : Event} (hM : ∀ u v, Booked e u v → M u → M v) {u v : State}
    (h : Books e u v) (hu : M u) : M v := by
  induction h with
  | refl => exact hu
  | tail _ hstep ih => exact hM _ _ hstep ih

/-- An attempt may begin: after a probe, after a backoff, or while attempts remain (42_at_sequencer R197, R200 to
R202). -/
def AttemptDue (s : State) : Prop :=
  s.seq.kind = .readyProbe ∨ s.seq.kind = .retryProbe ∨ s.seq.st = .backoff ∨
    (s.seq.kind = .cmd ∧ attemptsRemain s = true)

/-- Where each wait begins (42_at_sequencer R192, R200, R202, R211). -/
def WaitDue (s : State) : SeqState → Prop
  | .xSettle => s.seq.st = .xDrain
  | .backoff => s.seq.kind = .cmd ∧ attemptsRemain s = true
  | .rawPace => s.seq.st = .rawDrain ∧ s.seq.rawPos ≠ s.seq.rawN
  | .rawSettle => s.seq.st = .rawDrain ∧ s.seq.rawPos = s.seq.rawN
  | .idle | .xDrain | .xRecv | .rawDrain | .rawRecv => False

/-- A receive that has just begun or just got a byte (42_at_sequencer R178, R179). -/
def Fresh (p : Parser) : Prop := p.remaining = p.budget ∧ p.pollTicks = 0 ∧ p.emptyPolls = 0

/-- The one decision that ends an event. -/
inductive Decided (s : State) : State → Prop where
  | finish (c : Result) : Decided s (finish c s)
  | attempt : s.status.cancelPend = false → AttemptDue s → Decided s (attemptStarted s)
  | retryProbe : s.status.cancelPend = false → s.seq.kind = .cmd → attemptsRemain s = true →
      Decided s (exchangeStarted .retryProbe s.cfg.probeCmd s)
  | wait (d : Word) (w : SeqState) : d ≠ 0 → WaitDue s w → Decided s (s.setSeq { s.seq with waitLeft := d, st := w })
  | chunk : s.status.cancelPend = false →
      (s.seq.st = .rawPace ∨ (s.seq.st = .rawDrain ∧ s.seq.rawPos ≠ s.seq.rawN)) → Decided s (chunkSent s)
  | receives : isRecv s.seq.st = true → s.parser.budget ≠ 0 → Fresh s.parser → Decided s s
  /-- control states that no event reaches (log 12) -/
  | stray : isExchange s.seq.st = true → (s.seq.kind = .none ∨ s.seq.kind = .raw) → Decided s s

/-- An event of the at unit, after NOW has advanced if it is a tick: the block stays where it is, the payload timeout or a
channel error ends AT_RAW's writing, or the event counts, books and decides. -/
inductive UnitEvent (e : Event) (s : State) : State → Prop where
  | still {t : State} : Still s t → UnitEvent e s t
  | timedOut : UnitEvent e s (finish .timeoutError (countElapsed s))
  | failed : e = .chErr → UnitEvent e s (finish .channelError (setOutcome .invalid s))
  | decided {u v t : State} : Counted s u → Books e u v → Decided v t → UnitEvent e s t

/-- Bookkeeping, then a decision. -/
def Concludes (e : Event) (s t : State) : Prop := ∃ u, Books e s u ∧ Decided u t

/-! ### What the at unit does is made of these parts -/

section
variable {e : Event}

theorem Decided.concludes {s t : State} (h : Decided s t) : Concludes e s t := ⟨s, .refl, h⟩

theorem Concludes.after {s u t : State} (h : Booked e s u) : Concludes e u t → Concludes e s t
  | ⟨v, hbooked, hdecided⟩ => ⟨v, .head h hbooked, hdecided⟩

theorem Concludes.event {s u t : State} (hcount : Counted s u) : Concludes e u t → UnitEvent e s t
  | ⟨_, hbooked, hdecided⟩ => .decided hcount hbooked hdecided

theorem beginAttempt_decided {s : State} (h : AttemptDue s) : Decided s (beginAttempt s) := by
  cases hc : s.status.cancelPend
  · exact beginAttempt_sends hc ▸ .attempt hc h
  · exact beginAttempt_cancelled hc ▸ .finish _

theorem rawChunk_decided {s : State} (h : s.seq.st = .rawPace ∨ (s.seq.st = .rawDrain ∧ s.seq.rawPos ≠ s.seq.rawN)) :
    Decided s (rawChunk s) := by
  cases hc : s.status.cancelPend
  · exact rawChunk_sends hc ▸ .chunk hc h
  · exact rawChunk_cancelled hc ▸ .finish _

theorem retryProbe_decided {s : State} (hk : s.seq.kind = .cmd) (h : attemptsRemain s = true) :
    Decided s (startExchange .retryProbe s.cfg.probeCmd s) := by
  cases hc : s.status.cancelPend
  · exact startExchange_sends hc _ _ ▸ .retryProbe hc hk h
  · exact startExchange_cancelled hc _ _ ▸ .finish _

theorem setOutcome_seq (o : RxOutcome) (s : State) : (setOutcome o s).seq = s.seq := rfl

theorem commandSuccess_decided (s : State) : Decided s (commandSuccess s) := by
  obtain h | h := commandSuccess_cases s <;> rw [h] <;> exact .finish _

/-- The decision at the end of a CMD exchange (42_at_sequencer R199 to R202). -/
theorem afterCommand_decided (o : RxOutcome) {s : State} (hk : s.seq.kind = .cmd) : Decided s (afterCommand o s) := by
  have backsOff (d : Word) (hremain : attemptsRemain s = true) : Decided s (waitIn d .backoff beginAttempt s) := by
    obtain ⟨-, h⟩ | ⟨hd, h⟩ := waitIn_cases d .backoff beginAttempt s <;> rw [h]
    · exact beginAttempt_decided (.inr (.inr (.inr ⟨hk, hremain⟩)))
    · exact .wait d .backoff hd ⟨hk, hremain⟩
  cases o with
  | ok | data => exact commandSuccess_decided s
  | error | invalid =>
    unfold afterCommand
    split_ifs with hremain
    · exact backsOff _ hremain
    · exact .finish _
  | timeout =>
    unfold afterCommand
    split_ifs with hremain
    · exact retryProbe_decided hk hremain
    · exact .finish _

/-- The alive update is part of a probe's bookkeeping (42_at_sequencer R205). -/
theorem Concludes.after_aliveIfOk {o : RxOutcome} {s t : State} (hk : isProbe s.seq.kind = true)
    (h : Concludes e (aliveIfOk o s) t) : Concludes e s t := by
  unfold aliveIfOk at h
  split at h
  · exact h.after (.alive hk)
  · exact h

theorem aliveIfOk_seq (o : RxOutcome) (s : State) : (aliveIfOk o s).seq = s.seq := by
  unfold aliveIfOk
  split <;> rfl

theorem endExchange_concludes {o : RxOutcome} (ho : o = .invalid → e = .chErr) {s : State}
    (hst : isExchange s.seq.st = true) : Concludes e s (endExchange o s) := by
  have houtcome : Booked e s (setOutcome o s) := .outcome o ho
  unfold endExchange
  split
  case h_1 hk =>
    exact .after houtcome (.after_aliveIfOk (o := o) (by rw [setOutcome_seq, hk]; rfl) (Decided.finish _).concludes)
  case h_2 hk =>
    have hprobe : isProbe (setOutcome o s).seq.kind = true := by rw [setOutcome_seq, hk]; rfl
    split_ifs
    · refine .after houtcome (.after_aliveIfOk hprobe (beginAttempt_decided (.inl ?_)).concludes)
      rw [aliveIfOk_seq]
      exact hk
    · exact .after houtcome (.after_aliveIfOk hprobe (Decided.finish _).concludes)
  case h_3 hk =>
    refine .after houtcome (.after .response (afterCommand_decided o ?_).concludes)
    rw [responseUpdate_frame]
    exact hk
  case h_4 hk =>
    refine .after_aliveIfOk (by rw [hk]; rfl) (beginAttempt_decided (.inr (.inl ?_))).concludes
    rw [aliveIfOk_seq]
    exact hk
  case h_5 hk => exact (Decided.stray hst (.inl hk)).concludes
  case h_6 hk => exact (Decided.stray hst (.inr hk)).concludes

theorem endRaw_concludes {o : RxOutcome} (ho : o = .invalid → e = .chErr) (s : State) :
    Concludes e s (endRaw o s) :=
  .after (.outcome o ho) (.after .response (Decided.finish _).concludes)

theorem isExchange_of_isRecv {x : SeqState} (h : isRecv x = true) (hx : x ≠ .rawRecv) : isExchange x = true := by
  cases x with
  | xRecv => rfl
  | rawRecv => exact absurd rfl hx
  | _ => cases h

theorem endRecv_concludes {o : RxOutcome} (ho : o = .invalid → e = .chErr) {s : State}
    (hst : isRecv s.seq.st = true) : Concludes e s (endRecv o s) := by
  unfold endRecv
  split_ifs with hraw
  · exact endRaw_concludes ho s
  · exact endExchange_concludes ho (isExchange_of_isRecv hst hraw)

theorem endByTimeout_concludes {s : State} (hst : isRecv s.seq.st = true) : Concludes e s (endByTimeout s) := by
  obtain ⟨-, h⟩ | ⟨-, h⟩ := endByTimeout_cases s <;> rw [h] <;> exact endRecv_concludes (by simp) hst

/-- A terminal line ends a receive with OK or ERROR (42_at_sequencer R181). -/
theorem consume_outcome {b : Byte} {s t : State} {o : RxOutcome} (h : consume b s = (t, some o)) : o ≠ .invalid := by
  obtain ⟨u, hu, -⟩ | ⟨u, x, hu, hx, -⟩ := consume_cases b s
  · rw [hu] at h; cases h
  · rw [hu] at h; cases h
    obtain rfl | rfl := hx <;> decide

theorem consume_seq (b : Byte) (s : State) : (consume b s).1.seq = s.seq := by
  rw [(consume_frame b s).state]

theorem fresh_consume (b : Byte) (s : State) : Fresh (consume b s).1.parser := by
  rw [(consume_frame b s).parser]
  exact ⟨rfl, rfl, rfl⟩

/-- A queue without a terminal line leaves the receive running (42_at_sequencer R178). -/
theorem drainQueue_runs {q : List Byte} {s t : State} (hq : s.rxq = q) (hst : isRecv s.seq.st = true)
    (hfresh : Fresh s.parser) (h : drainQueue q s = (t, true)) :
    Books e s t ∧ isRecv t.seq.st = true ∧ Fresh t.parser := by
  induction q generalizing s with
  | nil => cases h; exact ⟨.refl, hst, hfresh⟩
  | cons b q ih =>
    have hseq := consume_seq b (s.setRxq q)
    have hrxq := consume_rxq b (s.setRxq q)
    have hfresh' := fresh_consume b (s.setRxq q)
    have hconsumed : Booked e (s.setRxq q) (consume b (s.setRxq q)).1 := .consumed b hst
    unfold drainQueue at h
    split at h
    · next u hu =>
      rw [hu] at hseq hrxq hfresh' hconsumed
      obtain ⟨hrest, ht⟩ := ih hrxq (by rwa [hseq]) hfresh' h
      exact ⟨.head (.popped b q hq) (.head hconsumed hrest), ht⟩
    · cases h

/-- A terminal line in the queue ends the receive (42_at_sequencer R178). -/
theorem drainQueue_concludes {q : List Byte} {s t : State} (hq : s.rxq = q) (hst : isRecv s.seq.st = true)
    (h : drainQueue q s = (t, false)) : Concludes e s t := by
  induction q generalizing s with
  | nil => cases h
  | cons b q ih =>
    have hseq := consume_seq b (s.setRxq q)
    have hrxq := consume_rxq b (s.setRxq q)
    have hconsumed : Booked e (s.setRxq q) (consume b (s.setRxq q)).1 := .consumed b hst
    refine .after (.popped b q hq) ?_
    unfold drainQueue at h
    split at h
    · next u hu =>
      rw [hu] at hseq hrxq hconsumed
      exact .after hconsumed (ih hrxq (by rwa [hseq]) h)
    · next u o hu =>
      rw [hu] at hseq hconsumed
      cases h
      exact .after hconsumed (endRecv_concludes (fun ho => absurd ho (consume_outcome hu)) (by rwa [hseq]))

theorem isRecv_openRecv (s : State) : isRecv (openRecv s).seq.st = true := by
  simp only [openRecv, State.setSeq_seq]
  split <;> rfl

theorem enterRecv_concludes {s : State} (hst : opensRecv s.seq.st = true)
    (hpos : s.seq.st = .rawDrain → s.seq.rawPos = s.seq.rawN) : Concludes e s (enterRecv s) := by
  refine .after (.opened hst hpos) ?_
  unfold enterRecv
  split
  · next t ht =>
    obtain ⟨hbooked, hrecv, hfresh⟩ :=
      drainQueue_runs (e := e) (s := openRecv s) rfl (isRecv_openRecv s) ⟨rfl, rfl, rfl⟩ ht
    split_ifs with hbudget
    · obtain ⟨u, htu, hu⟩ := endByTimeout_concludes (e := e) hrecv
      exact ⟨u, hbooked.trans htu, hu⟩
    · exact ⟨t, hbooked, .receives hrecv hbudget hfresh⟩
  · next t ht => exact drainQueue_concludes (s := openRecv s) rfl (isRecv_openRecv s) ht

/-! ### The events -/

theorem recvTick_event {s : State} (hst : isRecv s.seq.st = true) : UnitEvent e s (recvTick s) := by
  have hpoll : Counted s (recvCountdown s) := .poll hst
  have hends : UnitEvent e s (endByTimeout (recvCountdown s)) :=
    (endByTimeout_concludes (s := recvCountdown s) hst).event hpoll
  unfold recvTick
  dsimp only
  split_ifs with hzero hpolls
  · exact hends
  · exact hends
  · exact .still (.receives hst ⟨hzero, hpolls⟩)

/-- The last tick of a wait goes on to a receive or an attempt (42_at_sequencer R193). -/
theorem countdown_event {s : State} {k : State → State} (hst : isWait s.seq.st = true) (hpace : s.seq.st ≠ .rawPace)
    (hk : Concludes e (waitTick s) (k (waitTick s))) : UnitEvent e s (countdown k s) := by
  obtain ⟨-, h⟩ | ⟨hleft, h⟩ := countdown_cases k s <;> rw [h]
  · exact hk.event (.wait hst hpace)
  · exact .still (.waits hst hpace hleft)

/-- Below the payload timeout a tick does not wrap raw_elapsed (42_at_sequencer R212). -/
theorem timeLeft_of_lt {s : State} (h : (countElapsed s).seq.rawElapsed < s.cfg.payloadTimeoutMs) : TimeLeft s := h

theorem payloadTick_event {s : State} {k : State → State}
    (hk : TimeLeft s → UnitEvent e s (k (countElapsed s))) : UnitEvent e s (payloadTick k s) := by
  obtain ⟨-, h⟩ | ⟨hlt, h⟩ := payloadTick_cases k s <;> rw [h]
  · exact .timedOut
  · exact hk (timeLeft_of_lt hlt)

theorem pacing_event {s : State} (hst : s.seq.st = .rawPace) (htime : TimeLeft s) :
    UnitEvent e s (countdown rawChunk (countElapsed s)) := by
  obtain ⟨-, h⟩ | ⟨hleft, h⟩ := countdown_cases rawChunk (countElapsed s) <;> rw [h]
  · exact (rawChunk_decided (s := waitTick (countElapsed s)) (.inl hst)).concludes.event (.pace hst htime)
  · exact .still (.paces hst htime hleft)

/-- What a Tick does after NOW has advanced (42_at_sequencer R174). -/
theorem tickAction_event (s : State) : UnitEvent e s (tickAction s) := by
  unfold tickAction
  split
  case h_1 | h_2 => exact .still .same
  case h_3 hst | h_8 hst =>
    exact countdown_event (by rw [hst]; rfl) (by rw [hst]; decide)
      (enterRecv_concludes (s := waitTick s) (by rw [waitTick, State.setSeq_seq, hst]; rfl)
        fun h => absurd (hst.symm.trans h) (by decide))
  case h_4 hst | h_9 hst => exact recvTick_event (by rw [hst]; rfl)
  case h_5 hst =>
    exact countdown_event (by rw [hst]; rfl) (by rw [hst]; decide)
      (beginAttempt_decided (s := waitTick s) (.inr (.inr (.inl hst)))).concludes
  case h_6 hst => exact payloadTick_event fun htime => .still (.drains hst htime)
  case h_7 hst => exact payloadTick_event fun htime => pacing_event hst htime

theorem onRx_event (b : Byte) (s : State) : UnitEvent e s (onRx b s) := by
  cases hrecv : isRecv s.seq.st
  · rw [onRx_queues hrecv, queueByte]
    split_ifs with hroom
    · exact .still (.queues b hroom)
    · exact .still .overflows
  · have hon : onRx b s = receiveByte b s := by
      cases hst : s.seq.st with
      | xRecv | rawRecv => simp only [onRx, hst]
      | _ => rw [hst] at hrecv; cases hrecv
    have hconsumed : Booked e s (consume b s).1 := .consumed b hrecv
    have hstill : UnitEvent e s (consume b s).1 := .still (.consumes b hrecv)
    have hseq := consume_seq b s
    rw [hon, receiveByte]
    split
    · next t ht =>
      rw [ht] at hstill
      exact hstill
    · next t o ht =>
      rw [ht] at hconsumed hseq
      have hend : Concludes e t (endRecv o t) :=
        endRecv_concludes (fun ho => absurd ho (consume_outcome ht)) (by rwa [hseq])
      refine (Concludes.after hconsumed hend).event (.nothing ?_)
      cases hst : s.seq.st with
      | xRecv => exact .inl rfl
      | rawRecv => exact .inr rfl
      | _ => rw [hst] at hrecv; cases hrecv

theorem onDrainDone_event (s : State) : UnitEvent e s (onDrainDone s) := by
  cases hst : s.seq.st with
  | xDrain =>
    rw [show onDrainDone s = waitIn s.cfg.settleMs .xSettle enterRecv s by simp only [onDrainDone, hst]]
    have hcount : Counted s s := .nothing (.inl (by rw [hst]; rfl))
    obtain ⟨-, h⟩ | ⟨hd, h⟩ := waitIn_cases s.cfg.settleMs .xSettle enterRecv s <;> rw [h]
    · exact (enterRecv_concludes (by rw [hst]; rfl) (by simp [hst])).event hcount
    · exact (Decided.wait _ .xSettle hd hst).concludes.event hcount
  | rawDrain =>
    have hdrained : rawDrained s =
        if (chunkDrained s).seq.rawPos = (chunkDrained s).seq.rawN then
          waitIn s.cfg.rawSettleMs .rawSettle enterRecv (chunkDrained s)
        else waitIn s.cfg.paceMs .rawPace rawChunk (chunkDrained s) := rfl
    have hcount : Counted s (chunkDrained s) := .chunk hst
    rw [show onDrainDone s = rawDrained s by simp only [onDrainDone, hst], hdrained]
    split_ifs with hall
    · obtain ⟨-, h⟩ | ⟨hd, h⟩ := waitIn_cases s.cfg.rawSettleMs .rawSettle enterRecv (chunkDrained s) <;> rw [h]
      · exact (enterRecv_concludes (s := chunkDrained s)
          (by rw [show (chunkDrained s).seq.st = s.seq.st from rfl, hst]; rfl) fun _ => hall).event hcount
      · exact (Decided.wait (s := chunkDrained s) _ .rawSettle hd ⟨hst, hall⟩).concludes.event hcount
    · obtain ⟨-, h⟩ | ⟨hd, h⟩ := waitIn_cases s.cfg.paceMs .rawPace rawChunk (chunkDrained s) <;> rw [h]
      · exact (rawChunk_decided (s := chunkDrained s) (.inr ⟨hst, hall⟩)).concludes.event hcount
      · exact (Decided.wait (s := chunkDrained s) _ .rawPace hd ⟨hst, hall⟩).concludes.event hcount
  | _ =>
    rw [onDrainDone_stale (by simp [hst]) (by simp [hst])]
    exact .still .same

theorem onChErr_event (s : State) : UnitEvent .chErr s (onChErr s) := by
  have hexchange (h : isExchange s.seq.st = true) : UnitEvent .chErr s (endExchange .invalid s) :=
    (endExchange_concludes (fun _ => rfl) h).event (.nothing (.inl h))
  unfold onChErr
  split
  case h_1 hst | h_2 hst | h_3 hst => exact hexchange (by rw [hst]; rfl)
  case h_4 hst => exact (endRaw_concludes (fun _ => rfl) s).event (.nothing (.inr hst))
  case h_5 | h_6 | h_7 => exact .failed rfl
  case h_8 | h_9 => exact .still .ignores

/-- The events that reach the at unit (42_at_sequencer R173 to R176), NOW advanced first if it is a tick. -/
theorem unitEvent_of_runEvent {s t : State} (h : runEvent e s = .next t)
    (he : e = .tick ∨ e = .chErr ∨ e = .drainDone ∨ ∃ b, e = .rx b) :
    UnitEvent e (if e = .tick then advanceNow s else s) t := by
  obtain rfl | rfl | rfl | ⟨b, rfl⟩ := he <;> cases h
  · exact tickAction_event (advanceNow s)
  · exact onChErr_event s
  · exact onDrainDone_event s
  · exact onRx_event b s

end

end Sys2Proof.Machine
end

section
/-! SUPPORT. What a host access and an accepted command can do, one inversion lemma each. -/

namespace Sys2Proof.Machine

/-! ### Host writes (20_memory R63) -/

/-- What a host write outside CMD can do. -/
inductive BusWritten (v : Word) (s : State) : State → Prop where
  | ctrl : BusWritten v s (writeCtrl v s)
  | register (off : Offset) : BusWritten v s
      ((s.setRegs (storedRegs s.regs s.status.busy v off)).setStatus (storedStatus s.status s.status.busy off))
  | buffer (a : Nat) : (0x1000 ≤ a ∧ a + 4 ≤ 0x1400) ∨ (0x1400 ≤ a ∧ a + 4 ≤ 0x1540 ∧ s.status.busy = false) →
      BusWritten v s (s.setMem (s.mem.writeWord a v))
  | rejected : BusWritten v s s.setCmdRej
  | busErr : BusWritten v s s.setBusErr
  | nothing : BusWritten v s s

theorem busWritten (off : Offset) (v : Word) (s : State) : BusWritten v s (busWrite off v s) := by
  by_cases hmapped : off.toNat % 4 = 0 ∧ Mapped off.toNat
  · obtain ⟨halign, hblock | hrw | hro⟩ := hmapped
    · by_cases hctrl : off = 0x008
      · rw [hctrl, busWrite_ctrl]
        exact .ctrl
      · rw [busWrite_registerBlock halign hblock hctrl]
        exact .register off
    · by_cases htxt : off.toNat < 0x1400
      · rw [busWrite_stores halign (.inl ⟨hrw.1, htxt⟩)]
        exact .buffer _ (.inl ⟨hrw.1, by omega⟩)
      · have hlocked : 0x1400 ≤ off.toNat ∧ off.toNat < 0x1540 := ⟨Nat.not_lt.1 htxt, hrw.2⟩
        cases hbusy : s.status.busy
        · rw [busWrite_stores halign (.inr ⟨hlocked.1, hlocked.2, hbusy⟩)]
          exact .buffer _ (.inr ⟨hlocked.1, by omega, hbusy⟩)
        · rw [busWrite_locked halign hlocked hbusy]
          exact .rejected
    · rw [busWrite_readOnly halign hro]
      exact .nothing
  · rw [busWrite_busError (target_eq_busError.2 hmapped)]
    exact .busErr

/-! ### Accepted commands (30_encoding R84) -/

/-- The state in which AT_PROBE starts its exchange (42_at_sequencer R195). -/
def probeLatched (s : State) : State := (startOp .probe s).setStatus { (startOp .probe s).status with attempts := 1 }

/-- The state in which AT_EXEC goes on (42_at_sequencer R196). -/
def execLatched (flags : BitVec 4) (s : State) : State := latchExec flags (startOp .exec s)

/-- The state in which AT_RAW sends its first chunk (42_at_sequencer R209). -/
def rawLatched (s : State) : State := latchRaw (startOp .raw s)

/-- What the body of an accepted command does, with what it has checked. -/
inductive OpResult (s : State) : State → Prop where
  | complete (c : Result) : OpResult s (finish c s)
  | results (r0 r1 : Word) : OpResult s (finishWith r0 r1 s)
  | encodingFails : OpResult s (failEnc s)
  | frame (ws : List Word) (n : Nat) : ws.length ≤ outCap → n ≤ ws.length → OpResult s (finishFrame ws n s)
  | probe : OpResult s (startExchange .soloProbe s.cfg.probeCmd (probeLatched s))
  | readyProbe (flags : BitVec 4) : execArgsBad flags s = false →
      OpResult s (startExchange .readyProbe s.cfg.probeCmd (execLatched flags s))
  | attempt (flags : BitVec 4) : execArgsBad flags s = false → OpResult s (beginAttempt (execLatched flags s))
  | raw : s.regs.outLen ≠ 0 → OpResult s (rawChunk (rawLatched s))

/-- A text that passes the checks of 41_framer R150 has at most TXT_CAP bytes. -/
theorem length_textOperand_le {s : State} (h : ¬textTooLong s = true) : (textOperand s).length ≤ txtCap := by
  rw [textTooLong_iff] at h
  rw [textOperand, Memory.length_readBytes, txtCap]
  omega

/-- FR_FRAME's words fit OUT, and its message words are among them (41_framer R145, R151). -/
theorem length_encodeTransmission_le (p : Params) (r : Word) (a : Body) (func : BitVec 2) {text : List Byte} (o : Bool)
    (h : text.length ≤ txtCap) :
    (encodeTransmission p r a func text o).1.length ≤ outCap ∧
      (encodeTransmission p r a func text o).2 ≤ (encodeTransmission p r a func text o).1.length := by
  refine ⟨((longestOutputs.1 p r a func text o 0 h (by decide)).1).trans (by decide), ?_⟩
  simp only [encodeTransmission, List.length_append]
  omega

theorem exec_result (i : Instr) : ∃ k, (∀ s, exec i s = .next (accept k s)) ∧ ∀ s, OpResult s (k s) := by
  cases i with
  | nop => exact ⟨_, fun _ => rfl, fun _ => .complete _⟩
  | cwCrc | cwParity | cwEncode | cwAddr | cwCheck => exact ⟨_, fun _ => rfl, fun _ => .results _ _⟩
  | frText =>
    refine ⟨_, fun _ => rfl, fun s => ?_⟩
    dsimp only
    split_ifs with hpos hfunc hlong
    · exact .complete _
    · exact .encodingFails
    · exact .encodingFails
    · have hstart : (s.regs.arg0.extractLsb' 0 4).toNat ≤ 15 := Nat.le_of_lt_succ (BitVec.isLt _)
      have hwords := (longestOutputs.1 s.cfg 0 0 (frFunc s) _ (frBitOrder s) _ (length_textOperand_le hlong) hstart).2
      exact .frame _ _ (hwords.trans (by decide)) (le_refl _)
  | frFrame =>
    refine ⟨_, fun _ => rfl, fun s => ?_⟩
    dsimp only
    split_ifs with haddr hfunc hlong
    · exact .encodingFails
    · exact .encodingFails
    · exact .encodingFails
    · obtain ⟨hfits, hcount⟩ := length_encodeTransmission_le s.cfg s.regs.frRepeat (frAddress s) (frFunc s)
        (frBitOrder s) (length_textOperand_le hlong)
      exact .frame _ _ hfits hcount
  | atProbe => exact ⟨_, fun _ => rfl, fun _ => .probe⟩
  | atExec flags =>
    refine ⟨_, fun _ => rfl, fun s => ?_⟩
    dsimp only
    split_ifs with hbad
    · exact .complete _
    · exact .readyProbe flags (by simpa using hbad)
    · exact .attempt flags (by simpa using hbad)
  | atRaw =>
    refine ⟨_, fun _ => rfl, fun s => ?_⟩
    split_ifs with hempty
    · exact .complete _
    · exact .raw hempty

/-- A CMD write is refused while BUSY, and else runs the body of its op, or completes BAD_COMMAND, with DONE cleared. -/
theorem command_result {v : Word} {s t : State} (h : command v s = .next t) :
    (s.status.busy = true ∧ t = s.setCmdRej) ∨
    (s.status.busy = false ∧ OpResult (s.setStatus { s.status with done := false }) t) := by
  have hbody : ∃ k, (∀ s, command v s = .next (accept k s)) ∧ ∀ s, OpResult s (k s) := by
    cases hv : decode v with
    | ok i =>
      obtain ⟨k, hexec, hresult⟩ := exec_result i
      exact ⟨k, fun s => by simp only [command, hv, hexec], hresult⟩
    | error _ => exact ⟨finish .badCommand, fun s => by simp only [command, hv], fun _ => .complete _⟩
  obtain ⟨k, hcommand, hresult⟩ := hbody
  rw [hcommand] at h
  cases h
  obtain ⟨hbusy, he⟩ | ⟨hbusy, he⟩ := accept_cases k s
  · exact .inl ⟨hbusy, he⟩
  · exact .inr ⟨hbusy, he ▸ hresult _⟩

/-! ### Steps -/

/-- What a step does, by the part of the block that its event reaches. -/
inductive StepCase (s : State) : State → Prop where
  | noEvent : s.inbox = [] → StepCase s s
  | ignored (e : Event) (rest : List Event) : s.inbox = e :: rest → (s.inReset = true ↔ e ≠ .resetRelease) →
      StepCase s (s.setInbox rest)
  | released (rest : List Event) : s.inbox = .resetRelease :: rest → s.inReset = true →
      StepCase s (resetRelease (s.setInbox rest))
  | asserted (rest : List Event) : s.inbox = .resetAssert :: rest → s.inReset = false →
      StepCase s { s.setInbox rest with inReset := true }
  | rejected (v : Word) (rest : List Event) : s.inbox = .hostWrite 0 v :: rest → s.inReset = false →
      s.status.busy = true → StepCase s (s.setInbox rest).setCmdRej
  | command (v : Word) (rest : List Event) {t : State} : s.inbox = .hostWrite 0 v :: rest → s.inReset = false →
      s.status.busy = false → OpResult ((s.setInbox rest).setStatus { s.status with done := false }) t → StepCase s t
  | write (off : Offset) (v : Word) (rest : List Event) {t : State} : s.inbox = .hostWrite off v :: rest →
      s.inReset = false → BusWritten v (s.setInbox rest) t → StepCase s t
  | read (w : Word) (rest : List Event) {t : State} : s.inReset = false →
      t = (s.setInbox rest).setRdata w ∨ t = ((s.setInbox rest).setRdata w).setBusErr → StepCase s t
  | tick (rest : List Event) {t : State} : s.inbox = .tick :: rest → s.inReset = false →
      UnitEvent .tick (advanceNow (s.setInbox rest)) t → StepCase s t
  | event (e : Event) (rest : List Event) {t : State} : s.inbox = e :: rest → s.inReset = false → e ≠ .tick →
      UnitEvent e (s.setInbox rest) t → StepCase s t

theorem step_case {s t : State} (h : step s = .next t) : StepCase s t := by
  obtain ⟨hi, rfl⟩ | ⟨e, es, hi, hr, rfl⟩ | ⟨e, es, hi, hr, hrun⟩ := step_cases h
  · exact .noEvent hi
  · by_cases he : e = .resetRelease
    · subst he
      exact .released es hi hr
    · rw [heldEvent_ignored he]
      exact .ignored e es hi (by simp [hr, he])
  · have hunit := unitEvent_of_runEvent (e := e) hrun
    obtain ⟨v, rfl, hc⟩ | ⟨off, v, rfl, -, rfl⟩ | ⟨off, rfl, rfl⟩ | ⟨rfl, rfl⟩ | ⟨b, rfl, rfl⟩ | ⟨rfl, rfl⟩ |
      ⟨rfl, rfl⟩ | ⟨rfl, rfl⟩ | ⟨rfl, rfl⟩ := runEvent_cases hrun
    · obtain ⟨hbusy, rfl⟩ | ⟨hbusy, hresult⟩ := command_result hc
      · exact .rejected v es hi hr hbusy
      · exact .command v es hi hr hbusy hresult
    · exact .write off v es hi hr (busWritten off v _)
    · obtain ⟨w, hw⟩ := busRead_cases off (s.setInbox es)
      exact .read w es hr hw
    · exact .tick es hi hr (hunit (.inl rfl))
    · exact .event _ es hi hr (by simp) (hunit (.inr (.inr (.inr ⟨b, rfl⟩))))
    · exact .event _ es hi hr (by simp) (hunit (.inr (.inl rfl)))
    · exact .event _ es hi hr (by simp) (hunit (.inr (.inr (.inl rfl))))
    · exact .asserted es hi hr
    · exact .ignored _ es hi (by simp [hr])

end Sys2Proof.Machine
end

section
/-! SUPPORT. The control state (42_at_sequencer R220): what holds of it in the middle of an event, and that every event
leaves it consistent. -/

namespace Sys2Proof.Machine

/-! ### Induction over an event -/

/-- What an event leads to: `M` is what holds while it counts, books and decides. -/
theorem UnitEvent.leads {Q M : State → Prop} {e : Event} {s t : State} (h : UnitEvent e s t)
    (hstill : ∀ t, Still s t → Q t)
    (htimedOut : Q (finish .timeoutError (countElapsed s)))
    (hfailed : e = .chErr → Q (finish .channelError (setOutcome .invalid s)))
    (hcounted : ∀ u, Counted s u → M u)
    (hbooked : ∀ u v, Booked e u v → M u → M v)
    (hdecided : ∀ v t, Decided v t → M v → Q t) : Q t := by
  cases h with
  | still hst => exact hstill t hst
  | timedOut => exact htimedOut
  | failed he => exact hfailed he
  | decided hcount hbook hdecide => exact hdecided _ _ hdecide (hbook.keeps hbooked (hcounted _ hcount))

/-- An invariant `P` of events. -/
theorem UnitEvent.keeps {P M : State → Prop} {e : Event}
    (hstill : ∀ s t, Still s t → P s → P t)
    (htimedOut : ∀ s, P s → P (finish .timeoutError (countElapsed s)))
    (hfailed : e = .chErr → ∀ s, P s → P (finish .channelError (setOutcome .invalid s)))
    (hcounted : ∀ s u, Counted s u → P s → M u)
    (hbooked : ∀ u v, Booked e u v → M u → M v)
    (hdecided : ∀ v t, Decided v t → M v → P t)
    {s t : State} (h : UnitEvent e s t) (hs : P s) : P t :=
  h.leads (fun t hst => hstill s t hst hs) (htimedOut s hs) (fun he => hfailed he s hs)
    (fun u hc => hcounted s u hc hs) hbooked hdecided

/-! ### The control state within an event -/

/-- An op runs, in a legal control state. -/
structure Running (s : State) : Prop where
  legal : legalControl s.seq.op s.seq.kind s.seq.st = true
  notIdle : s.seq.st ≠ .idle
  busy : s.status.busy = true
  notDone : s.status.done = false

theorem Running.of_ctrlInv {s : State} (h : CtrlInv s) (hst : s.seq.st ≠ .idle) : Running s := by
  obtain ⟨hlegal, hbusy, hdone, -, -, -⟩ := h
  exact ⟨hlegal, hst, hbusy.2 hst, hdone (hbusy.2 hst)⟩

theorem Running.ctrlInv {s : State} (h : Running s) (hwait : isWait s.seq.st = true → s.seq.waitLeft ≠ 0) : CtrlInv s :=
  ⟨h.legal, ⟨fun _ => h.notIdle, fun _ => h.busy⟩, fun _ => h.notDone, fun _ => h.busy, hwait,
    fun hst => absurd hst h.notIdle⟩

theorem ctrlInv_finish (c : Result) (s : State) : CtrlInv (finish c s) := by
  simp [CtrlInv, legalControl, isWait]

/-- The states of AT_RAW (42_at_sequencer R209 to R214). -/
def isRaw : SeqState → Bool
  | .rawDrain | .rawPace | .rawSettle | .rawRecv => true
  | .idle | .xDrain | .xSettle | .xRecv | .backoff => false

/-- The `op`, `kind` and `st` that occur together, op by op. -/
theorem legalControl_iff {o : RunningOp} {k : Kind} {x : SeqState} : legalControl o k x = true ↔
    (o = .none ∧ k = .none ∧ x = .idle) ∨
    (o = .probe ∧ k = .soloProbe ∧ isExchange x = true) ∨
    (o = .exec ∧ (k = .readyProbe ∨ k = .retryProbe) ∧ isExchange x = true) ∨
    (o = .exec ∧ k = .cmd ∧ (isExchange x = true ∨ x = .backoff)) ∨
    (o = .raw ∧ k = .raw ∧ isRaw x = true) := by
  cases o <;> cases k <;> cases x <;> decide

/-- A CMD, readiness or retry exchange belongs to AT_EXEC. -/
theorem Running.exec {s : State} (h : Running s)
    (hk : s.seq.kind = .readyProbe ∨ s.seq.kind = .retryProbe ∨ s.seq.st = .backoff ∨ s.seq.kind = .cmd) :
    s.seq.op = .exec := by
  obtain ⟨-, -, hst⟩ | ⟨-, hkind, hst⟩ | ⟨hop, -⟩ | ⟨hop, -⟩ | ⟨-, hkind, hst⟩ := legalControl_iff.1 h.legal
  · exact absurd hst h.notIdle
  · obtain hk | hk | hk | hk := hk <;> simp [hk, isExchange] at hkind hst
  · exact hop
  · exact hop
  · obtain hk | hk | hk | hk := hk <;> simp [hk, isRaw] at hkind hst

theorem Running.attemptDue {s : State} (h : Running s) (hdue : AttemptDue s) : s.seq.op = .exec :=
  h.exec (hdue.imp_right (.imp_right (.imp_right And.left)))

theorem isRaw_of_isExchange {x : SeqState} (h : isExchange x = true) : isRaw x = false := by
  cases x with
  | xDrain | xSettle | xRecv => rfl
  | _ => cases h

/-- AT_RAW runs exactly in its states. -/
theorem Running.raw_iff {s : State} (h : Running s) : s.seq.kind = .raw ↔ isRaw s.seq.st = true := by
  obtain ⟨-, -, hst⟩ | ⟨-, hkind, hst⟩ | ⟨-, hkind | hkind, hst⟩ | ⟨-, hkind, hst | hst⟩ | ⟨-, hkind, hst⟩ :=
    legalControl_iff.1 h.legal
  · exact absurd hst h.notIdle
  · simp [hkind, isRaw_of_isExchange hst]
  · simp [hkind, isRaw_of_isExchange hst]
  · simp [hkind, isRaw_of_isExchange hst]
  · simp [hkind, isRaw_of_isExchange hst]
  · simp [hkind, hst, isRaw]
  · simp [hkind, hst]

theorem Running.raw_op {s : State} (h : Running s) : s.seq.kind = .raw ↔ s.seq.op = .raw := by
  obtain ⟨-, -, hst⟩ | ⟨hop, hkind, -⟩ | ⟨hop, hkind | hkind, -⟩ | ⟨hop, hkind, -⟩ | ⟨hop, hkind, -⟩ :=
    legalControl_iff.1 h.legal
  · exact absurd hst h.notIdle
  all_goals simp [hop, hkind]

/-- An exchange has a kind of its own (log 12). -/
theorem Running.not_stray {s : State} (h : Running s) (hst : isExchange s.seq.st = true) :
    ¬(s.seq.kind = .none ∨ s.seq.kind = .raw) := by
  obtain ⟨-, -, hidle⟩ | ⟨-, hkind, -⟩ | ⟨-, hkind | hkind, -⟩ | ⟨-, hkind, -⟩ | ⟨-, -, hraw⟩ :=
    legalControl_iff.1 h.legal
  · exact absurd hidle h.notIdle
  · simp [hkind]
  · simp [hkind]
  · simp [hkind]
  · simp [hkind]
  · simp [isRaw_of_isExchange hst] at hraw

/-- An exchange may go through its three states, AT_RAW through its four. -/
theorem legalControl_moved {o : RunningOp} {k : Kind} {x y : SeqState} (h : legalControl o k x = true)
    (hxy : (isExchange x = true ∧ isExchange y = true) ∨ (isRaw x = true ∧ isRaw y = true)) :
    legalControl o k y = true := by
  rw [legalControl_iff] at h ⊢
  obtain ⟨hx, hy⟩ | ⟨hx, hy⟩ := hxy
  · obtain ⟨-, -, rfl⟩ | ⟨ho, hk, -⟩ | ⟨ho, hk, -⟩ | ⟨ho, hk, -⟩ | ⟨-, -, hraw⟩ := h
    · cases hx
    · exact .inr (.inl ⟨ho, hk, hy⟩)
    · exact .inr (.inr (.inl ⟨ho, hk, hy⟩))
    · exact .inr (.inr (.inr (.inl ⟨ho, hk, .inl hy⟩)))
    · simp [isRaw_of_isExchange hx] at hraw
  · obtain ⟨-, -, rfl⟩ | ⟨-, -, hexch⟩ | ⟨-, -, hexch⟩ | ⟨-, -, hexch | rfl⟩ | ⟨ho, hk, -⟩ := h
    · cases hx
    · simp [isRaw_of_isExchange hexch] at hx
    · simp [isRaw_of_isExchange hexch] at hx
    · simp [isRaw_of_isExchange hexch] at hx
    · cases hx
    · exact .inr (.inr (.inr (.inr ⟨ho, hk, hy⟩)))

theorem Running.of_seq {s t : State} (h : Running s) (hlegal : legalControl t.seq.op t.seq.kind t.seq.st = true)
    (hidle : t.seq.st ≠ .idle) (hbusy : t.status.busy = s.status.busy) (hdone : t.status.done = s.status.done) :
    Running t :=
  ⟨hlegal, hidle, hbusy.trans h.busy, hdone.trans h.notDone⟩

theorem Running.same {s t : State} (h : Running s) (hop : t.seq.op = s.seq.op) (hkind : t.seq.kind = s.seq.kind)
    (hst : t.seq.st = s.seq.st) (hbusy : t.status.busy = s.status.busy) (hdone : t.status.done = s.status.done) :
    Running t :=
  h.of_seq (by rw [hop, hkind, hst]; exact h.legal) (hst ▸ h.notIdle) hbusy hdone

/-- A receive begins in the state that its kind asks for. -/
theorem Running.openRecv {s : State} (h : Running s) (hst : opensRecv s.seq.st = true) : Running (openRecv s) := by
  have hseq : (Machine.openRecv s).seq = { s.seq with st := if s.seq.kind = .raw then .rawRecv else .xRecv } := rfl
  refine h.of_seq ?_ (ne_of_isRecv (isRecv_openRecv s) rfl) rfl rfl
  rw [hseq]
  refine legalControl_moved h.legal ?_
  split_ifs with hraw
  · exact .inr ⟨h.raw_iff.1 hraw, rfl⟩
  · refine .inl ⟨?_, rfl⟩
    have hnot : ¬isRaw s.seq.st = true := mt h.raw_iff.2 hraw
    cases hx : s.seq.st with
    | xDrain | xSettle => rfl
    | rawDrain | rawSettle => rw [hx] at hnot; exact absurd rfl hnot
    | _ => rw [hx] at hst; cases hst

/-- Bookkeeping changes `st` only where a receive begins. -/
theorem Running.booked {e : Event} {s t : State} (h : Running s) (hb : Booked e s t) : Running t := by
  cases hb with
  | outcome | alive | popped => exact h.same rfl rfl rfl rfl rfl
  | response => rw [responseUpdate_frame]; exact h.same rfl rfl rfl rfl rfl
  | opened hst _ => exact h.openRecv ‹_›
  | consumed => rw [(consume_frame _ s).state]; exact h.same rfl rfl rfl rfl rfl

/-- Counting happens while an op runs, and leaves the control state alone. -/
theorem running_counted {s u : State} (h : Counted s u) (hs : CtrlInv s) : Running u := by
  have hrun := Running.of_ctrlInv hs
  cases h with
  | nothing hst =>
    refine hrun fun hidle => ?_
    simp [hidle, isExchange] at hst
  | wait hst _ => exact (hrun (ne_of_isWait hst rfl)).same rfl rfl rfl rfl rfl
  | pace hst _ => exact (hrun (by simp [hst])).same rfl rfl rfl rfl rfl
  | poll hst => exact (hrun (ne_of_isRecv hst rfl)).same rfl rfl rfl rfl rfl
  | chunk hst => exact (hrun (by simp [hst])).same rfl rfl rfl rfl rfl

/-! ### Every event leaves it consistent -/

theorem ctrlInv_still {s t : State} (h : Still s t) (hs : CtrlInv s) : CtrlInv t := by
  obtain ⟨hlegal, hbusy, hdone, hcancel, hwait, hidle⟩ := hs
  cases h with
  | waits hst _ hleft => exact ⟨hlegal, hbusy, hdone, hcancel, fun _ => hleft, fun h => absurd h (ne_of_isWait hst rfl)⟩
  | paces hst _ hleft => exact ⟨hlegal, hbusy, hdone, hcancel, fun _ => hleft, fun h => absurd (hst.symm.trans h) (by decide)⟩
  | consumes => rw [(consume_frame _ s).state]; exact ⟨hlegal, hbusy, hdone, hcancel, hwait, hidle⟩
  | _ => exact ⟨hlegal, hbusy, hdone, hcancel, hwait, hidle⟩

theorem ctrlInv_exchangeStarted {k : Kind} {bs : List Byte} {s : State} (hlegal : legalControl s.seq.op k .xDrain = true)
    (hbusy : s.status.busy = true) (hdone : s.status.done = false) : CtrlInv (exchangeStarted k bs s) :=
  Running.ctrlInv ⟨hlegal, by simp [exchangeStarted, exchanging], hbusy, hdone⟩ nofun

theorem ctrlInv_decided {s t : State} (h : Decided s t) (hs : Running s) : CtrlInv t := by
  cases h with
  | finish c => exact ctrlInv_finish c s
  | attempt _ hdue =>
    exact ctrlInv_exchangeStarted (by rw [State.setStatus_seq, hs.attemptDue hdue]; rfl) hs.busy hs.notDone
  | retryProbe _ hkind _ =>
    exact ctrlInv_exchangeStarted (by rw [hs.exec (.inr (.inr (.inr hkind)))]; rfl) hs.busy hs.notDone
  | wait d w hd hdue =>
    refine Running.ctrlInv (s := s.setSeq { s.seq with waitLeft := d, st := w }) ?_ fun _ => hd
    cases w with
    | xSettle =>
      exact hs.of_seq (legalControl_moved hs.legal (.inl ⟨by rw [show s.seq.st = _ from hdue]; rfl, rfl⟩)) (by simp)
        rfl rfl
    | backoff => exact hs.of_seq (by simp [hdue.1, hs.exec (.inr (.inr (.inr hdue.1))), legalControl]) (by simp) rfl rfl
    | rawPace | rawSettle =>
      exact hs.of_seq (legalControl_moved hs.legal (.inr ⟨by rw [hdue.1]; rfl, rfl⟩)) (by simp) rfl rfl
    | _ => cases hdue
  | chunk _ hst =>
    have hraw : isRaw s.seq.st = true := by
      obtain h | ⟨h, -⟩ := hst <;> rw [h] <;> rfl
    exact Running.ctrlInv (hs.of_seq (t := chunkSent s) (legalControl_moved hs.legal (.inr ⟨hraw, rfl⟩))
      (by simp [chunkSent]) rfl rfl) nofun
  | receives hst _ _ => exact hs.ctrlInv fun hwait => by simp [isRecv_of_isWait hwait] at hst
  | stray hst hkind => exact absurd hkind (hs.not_stray hst)

theorem ctrlInv_unitEvent {e : Event} {s t : State} (h : UnitEvent e s t) (hs : CtrlInv s) : CtrlInv t :=
  h.keeps (M := Running) (fun _ _ => ctrlInv_still) (fun _ _ => ctrlInv_finish _ _) (fun _ _ _ => ctrlInv_finish _ _)
    (fun _ _ => running_counted) (fun _ _ hb hu => hu.booked hb) (fun _ _ => ctrlInv_decided) hs

/-- Every accepted command completes or starts an op. -/
theorem ctrlInv_opResult {s t : State} (h : OpResult s t) (hs : Idle s) (hdone : s.status.done = false) : CtrlInv t := by
  obtain ⟨-, hcancel, -⟩ := idle_control hs
  cases h with
  | complete | results | encodingFails | frame => exact ctrlInv_finish _ _
  | probe =>
    rw [startExchange_sends (s := probeLatched s) hcancel]
    exact ctrlInv_exchangeStarted (s := probeLatched s) rfl rfl hdone
  | readyProbe flags _ =>
    rw [startExchange_sends (s := execLatched flags s) hcancel]
    exact ctrlInv_exchangeStarted (s := execLatched flags s) rfl rfl hdone
  | attempt flags _ =>
    rw [beginAttempt_sends (s := execLatched flags s) hcancel]
    exact ctrlInv_exchangeStarted (s := (execLatched flags s).setStatus _) rfl rfl hdone
  | raw _ =>
    rw [rawChunk_sends (s := rawLatched s) hcancel]
    exact Running.ctrlInv (s := chunkSent (rawLatched s)) ⟨rfl, by simp [chunkSent], rfl, hdone⟩ nofun

/-- CANCEL is noted only while BUSY, and nothing else of the control state is written by the host (10_state R26). -/
theorem ctrlInv_busWritten {v : Word} {s t : State} (h : BusWritten v s t) (hs : CtrlInv s) : CtrlInv t := by
  obtain ⟨hlegal, hbusy, hdone, hcancel, hwait, hidle⟩ := hs
  cases h with
  | ctrl =>
    rw [writeCtrl_eq]
    refine ⟨hlegal, hbusy, fun h => ?_, fun h => ?_, hwait, hidle⟩
    · simp [hdone h]
    · obtain h | h : s.status.cancelPend = true ∨ v.getLsbD 0 = true ∧ s.status.busy = true := by simpa using h
      exacts [hcancel h, h.2]
  | _ => exact ⟨hlegal, hbusy, hdone, hcancel, hwait, hidle⟩

theorem ctrlInv_reset (p : Params) : CtrlInv (State.resetWith p) := by
  simp [CtrlInv, State.resetWith, Seq.reset, Status.reset, legalControl, isWait]

/-- Settles O46: within an event an op runs in a legal state, and its one decision leads to a consistent one. -/
theorem controlInvKept : Obligations.ControlInvKept := by
  intro s t hs h
  cases step_case h with
  | noEvent | ignored | asserted | rejected => exact hs
  | released => exact ctrlInv_reset s.cfg
  | command _ _ _ _ hbusy hresult => exact ctrlInv_opResult hresult (idle_accepted ⟨hs, hbusy⟩) rfl
  | write _ _ _ _ _ hwritten => exact ctrlInv_busWritten hwritten hs
  | read _ _ _ hread => obtain rfl | rfl := hread <;> exact hs
  | tick _ _ _ hevent => exact ctrlInv_unitEvent hevent hs
  | event _ _ _ _ _ hevent => exact ctrlInv_unitEvent hevent hs

end Sys2Proof.Machine
end

section
/-! SUPPORT. The whole invariant: what holds of the buffers, queues and counts at all times, and what holds of attempts,
operands, receives and AT_RAW's progress within an event; from these, that every step keeps `Safe`. -/

namespace Sys2Proof.Machine

/-! ### Buffers, queue and counts -/

/-- The buffers in numbers (10_state R20). -/
theorem inBuffers_of_window {a : Nat}
    (h : (0x1000 ≤ a ∧ a < 0x1540) ∨ (0x1600 ≤ a ∧ a < 0x1700) ∨ (0x2000 ≤ a ∧ a < 0x2800)) : inBuffers a = true := by
  unfold inBuffers txtBase txtCap cmdbufBase cmdCap markerBase markCap respBase lineMax outBase outCap
  simp only [Bool.or_eq_true, Bool.and_eq_true, decide_eq_true_eq]
  omega

/-- The parts of `Safe` that do not speak of the control state. -/
structure DataInv (s : State) : Prop where
  cfg : s.cfg.ok = true
  lineLength : s.parser.line.length ≤ lineMax
  printable : ∀ b ∈ s.parser.line, 0x20 ≤ b ∧ b ≤ 0x7E
  payload : ∀ p ∈ s.parser.payload, p.head? = some 0x2B ∧ p.length ≤ lineMax
  queue : QueueInv s
  resp : RespInv s
  out : OutInv s
  mem : s.mem.wf

/-- What `DataInv` looks at. -/
def State.data (s : State) : Params × (List Byte × Option (List Byte)) × List Byte × (Bool × Word) × (Word × Word) × Memory :=
  (s.cfg, (s.parser.line, s.parser.payload), s.rxq, (s.status.dataValid, s.regs.respLen),
    (s.regs.outLen, s.regs.frTextwords), s.mem)

theorem DataInv.same {s t : State} (h : DataInv s) (hsame : t.data = s.data) : DataInv t := by
  simp only [State.data, Prod.mk.injEq] at hsame
  obtain ⟨hcfg, ⟨hline, hpayload⟩, hrxq, ⟨hvalid, hresp⟩, ⟨hout, hwords⟩, hmem⟩ := hsame
  refine ⟨hcfg ▸ h.cfg, hline ▸ h.lineLength, hline ▸ h.printable, hpayload ▸ h.payload, ?_, ?_, ?_, hmem ▸ h.mem⟩
  · rw [QueueInv, hrxq, hcfg]; exact h.queue
  · rw [RespInv, hvalid, hresp]; exact h.resp
  · rw [OutInv, hout, hwords]; exact h.out

theorem DataInv.line {s : State} (h : DataInv s) : LineInv s.parser := ⟨h.lineLength, h.printable, h.payload⟩

section
variable {s : State} (h : DataInv s)
include h

/-- A payload is a nonempty line, so RESP has room for it (10_state R36, R43). -/
theorem DataInv.responseUpdate : DataInv (responseUpdate s) := by
  unfold Machine.responseUpdate
  split
  case h_1 p hp =>
    obtain ⟨hhead, hlen⟩ := h.payload p hp
    have hpos : 1 ≤ p.length := by
      cases p with
      | nil => cases hhead
      | cons => simp
    rw [lineMax] at hlen
    have hcount : (BitVec.ofNat 32 p.length).toNat = p.length := by
      rw [BitVec.toNat_ofNat, Nat.mod_eq_of_lt (by omega)]
    refine ⟨h.cfg, h.lineLength, h.printable, h.payload, h.queue, ⟨nofun, fun _ => ?_⟩, h.out, ?_⟩
    · simp only [State.setStatus_regs, State.setRegs_regs, hcount]
      exact ⟨hpos, hlen⟩
    · refine Memory.wf_write h.mem fun x hlow hhigh => ?_
      simp only [respBase] at hlow hhigh
      exact inBuffers_of_window (.inr (.inl (by omega)))
  case h_2 => exact ⟨h.cfg, h.lineLength, h.printable, h.payload, h.queue, ⟨fun _ => rfl, nofun⟩, h.out, h.mem⟩

theorem DataInv.consume (b : Byte) : DataInv (consume b s).1 := by
  obtain ⟨hlen, hprint, hpayload⟩ := consume_lineInv b h.line
  rw [(consume_frame b s).state]
  exact ⟨h.cfg, hlen, hprint, hpayload, h.queue, h.resp, h.out, h.mem⟩

theorem DataInv.finish (c : Result) : DataInv (finish c s) :=
  h.same rfl

theorem DataInv.setQueue {q : List Byte} (hq : q.length ≤ s.cfg.rxqCap) : DataInv (s.setRxq q) :=
  ⟨h.cfg, h.lineLength, h.printable, h.payload, hq, h.resp, h.out, h.mem⟩

theorem DataInv.still {t : State} (hst : Still s t) : DataInv t := by
  cases hst with
  | consumes b => exact h.consume b
  | queues b hroom => exact h.setQueue (by simpa using hroom)
  | _ => exact h.same rfl

theorem DataInv.counted {t : State} (hc : Counted s t) : DataInv t := by
  cases hc <;> exact h.same rfl

theorem DataInv.booked {e : Event} {t : State} (hb : Booked e s t) : DataInv t := by
  cases hb with
  | outcome | alive => exact h.same rfl
  | response => exact h.responseUpdate
  | opened => exact ⟨h.cfg, Nat.zero_le _, nofun, nofun, h.queue, h.resp, h.out, h.mem⟩
  | popped b q hq =>
    have hlen : s.rxq.length ≤ s.cfg.rxqCap := h.queue
    refine h.setQueue ?_
    rw [hq, List.length_cons] at hlen
    omega
  | consumed b => exact h.consume b

theorem DataInv.exchangeStarted (k : Kind) (bs : List Byte) : DataInv (exchangeStarted k bs s) :=
  ⟨h.cfg, Nat.zero_le _, nofun, nofun, Nat.zero_le _, h.resp, h.out, h.mem⟩

theorem DataInv.decided {t : State} (hd : Decided s t) : DataInv t := by
  cases hd with
  | finish c => exact h.finish c
  | attempt =>
    have hcounted : DataInv (s.setStatus { s.status with attempts := s.status.attempts + 1 }) :=
      h.same rfl
    exact hcounted.exchangeStarted _ _
  | retryProbe => exact h.exchangeStarted _ _
  | _ => exact h.same rfl

/-- The op's output lies within OUT (41_framer R145). -/
theorem DataInv.frame {ws : List Word} {n : Nat} (hfits : ws.length ≤ outCap) (hn : n ≤ ws.length) :
    DataInv (finishFrame ws n s) := by
  have hcap : ws.length ≤ 512 := hfits
  refine ⟨h.cfg, h.lineLength, h.printable, h.payload, h.queue, h.resp, ⟨?_, ?_⟩, ?_⟩
  · exact (Nat.mod_le _ _).trans hfits
  · change BitVec.ofNat 32 n ≤ BitVec.ofNat 32 ws.length
    rw [BitVec.le_def, BitVec.toNat_ofNat, BitVec.toNat_ofNat, Nat.mod_eq_of_lt (by omega),
      Nat.mod_eq_of_lt (by omega)]
    exact hn
  · refine Memory.wf_write h.mem fun x hlow hhigh => ?_
    rw [length_wordsToBytes] at hhigh
    simp only [outBase] at hlow hhigh
    exact inBuffers_of_window (.inr (.inr (by omega)))

/-- No host write reaches OUT_LEN, FR_TEXTWORDS, RESP_LEN, the queue or the parser (20_memory R63). -/
theorem DataInv.busWritten {v : Word} {t : State} (hw : BusWritten v s t) : DataInv t := by
  cases hw with
  | ctrl =>
    rw [writeCtrl_eq]
    exact h.same rfl
  | buffer a ha =>
    refine ⟨h.cfg, h.lineLength, h.printable, h.payload, h.queue, h.resp, h.out, Memory.wf_write h.mem fun x hlow hhigh => ?_⟩
    rw [length_bytesOfWord] at hhigh
    exact inBuffers_of_window (.inl (by omega))
  | _ => exact h.same rfl

/-- A started op has no payload yet (42_at_sequencer R208). -/
theorem DataInv.latched {t : State} (hcfg : t.cfg = s.cfg) (hparser : t.parser = s.parser) (hrxq : t.rxq = s.rxq)
    (hmem : t.mem = s.mem) (hout : t.regs.outLen = s.regs.outLen) (hwords : t.regs.frTextwords = s.regs.frTextwords)
    (hresp : t.regs.respLen = 0) (hvalid : t.status.dataValid = false) : DataInv t := by
  refine ⟨hcfg ▸ h.cfg, hparser ▸ h.lineLength, hparser ▸ h.printable, hparser ▸ h.payload, ?_, ⟨fun _ => hresp, ?_⟩, ?_,
    hmem ▸ h.mem⟩
  · rw [QueueInv, hcfg, hrxq]
    exact h.queue
  · simp [hvalid]
  · rw [OutInv, hout, hwords]
    exact h.out

end

/-! ### Attempts (42_at_sequencer R198, R200 to R202) -/

/-- Where an attempt may begin, one is left. -/
theorem attempts_lt_of_due {s : State} (h : AttemptInv s) (hop : s.seq.op = .exec) (hdue : AttemptDue s) :
    s.status.attempts < s.seq.maxAtt := by
  obtain ⟨hexec, hready, -, hretry, -, -⟩ := h
  obtain hk | hk | hst | ⟨-, hremain⟩ := hdue
  · rw [hready hk]
    have := (hexec hop).1
    bv_omega
  · exact hretry (.inl hk)
  · exact hretry (.inr hst)
  · exact of_decide_eq_true hremain

theorem attemptInv_finish (c : Result) (s : State) : AttemptInv (finish c s) := by
  simp [AttemptInv]

theorem attemptInv_booked {e : Event} {s t : State} (h : AttemptInv s) (hb : Booked e s t) : AttemptInv t := by
  cases hb with
  | response => rw [responseUpdate_frame]; exact h
  | consumed => rw [(consume_frame _ s).state]; exact h
  | opened =>
    obtain ⟨hexec, hready, hcmd, hretry, hprobe, hraw⟩ := h
    refine ⟨hexec, hready, hcmd, fun hk => hretry (hk.imp_right fun hst => ?_), hprobe, hraw⟩
    exact absurd hst (ne_of_isRecv (isRecv_openRecv s) rfl)
  | _ => exact h

theorem attemptInv_decided {s t : State} (h : AttemptInv s) (hs : Running s) (hd : Decided s t) : AttemptInv t := by
  cases hd with
  | finish c => exact attemptInv_finish c s
  | attempt _ hdue =>
    have hop := hs.attemptDue hdue
    have hlt := attempts_lt_of_due h hop hdue
    have hnext : s.status.attempts + 1 ≤ s.seq.maxAtt ∧ s.status.attempts + 1 ≠ 0 := by constructor <;> bv_omega
    have hne : s.seq.maxAtt ≠ 0 := by bv_omega
    exact ⟨fun _ => ⟨hne, hnext.1⟩, nofun, fun _ => hnext.2, by simp [attemptStarted, exchangeStarted, exchanging],
      fun hp => by simp [attemptStarted, exchangeStarted, exchanging, hop] at hp,
      fun hp => by simp [attemptStarted, exchangeStarted, exchanging, hop] at hp⟩
  | retryProbe _ hkind hremain =>
    obtain ⟨hexec, -, -, -, hprobe, hraw⟩ := h
    exact ⟨hexec, nofun, nofun, fun _ => of_decide_eq_true hremain, hprobe, hraw⟩
  | wait d w _ hdue =>
    obtain ⟨hexec, hready, hcmd, hretry, hprobe, hraw⟩ := h
    refine ⟨hexec, hready, hcmd, fun hk => hk.elim (fun hk => hretry (.inl hk)) fun hw => ?_, hprobe, hraw⟩
    obtain rfl : w = .backoff := hw
    exact of_decide_eq_true hdue.2
  | chunk =>
    obtain ⟨hexec, hready, hcmd, hretry, hprobe, hraw⟩ := h
    exact ⟨hexec, hready, hcmd, fun hk => hretry (hk.imp_right nofun), hprobe, hraw⟩
  | receives | stray => exact h

/-! ### Operands (70_reset R282) -/

theorem operandInv_finish (c : Result) (s : State) : OperandInv (finish c s) := by
  simp [OperandInv]

theorem operandInv_booked {e : Event} {s t : State} (h : OperandInv s) (hb : Booked e s t) : OperandInv t := by
  cases hb with
  | response => rw [responseUpdate_frame]; exact h
  | consumed => rw [(consume_frame _ s).state]; exact h
  | _ => exact h

theorem operandInv_decided {s t : State} (h : OperandInv s) (hd : Decided s t) : OperandInv t := by
  cases hd with
  | finish c => exact operandInv_finish c s
  | _ => exact h

/-- A running op's operands are locked (10_state R35). -/
theorem operandInv_busWritten {v : Word} {s t : State} (h : OperandInv s) (hs : CtrlInv s) (hw : BusWritten v s t) :
    OperandInv t := by
  cases hw with
  | ctrl => rw [writeCtrl_eq]; exact h
  | register off =>
    cases hbusy : s.status.busy
    · have hop : s.seq.op = .none := (idle_control ⟨hs, hbusy⟩).2.2.2.2.1
      simp [OperandInv, hop]
    · simpa [OperandInv, storedRegs] using h
  | _ => exact h

/-! ### Receives (42_at_sequencer R178 to R184) -/

/-- The part of `ParserInv` that speaks of a running receive. -/
def RecvInv (s : State) : Prop :=
  isRecv s.seq.st = true →
    s.parser.remaining ≠ 0 ∧ s.parser.remaining ≤ s.parser.budget ∧ s.parser.budget = recvBudget s ∧
    s.parser.pollTicks < s.cfg.pollMs ∧
    (s.cfg.maxEmptyPolls ≠ 0 → s.parser.emptyPolls < s.cfg.maxEmptyPolls)

/-- A running receive counts down from the budget of its kind. -/
def BudgetInv (s : State) : Prop := isRecv s.seq.st = true → s.parser.budget = recvBudget s

theorem RecvInv.of_not {s : State} (h : isRecv s.seq.st = false) : RecvInv s := by
  simp [RecvInv, h]

theorem pollMs_ne_zero {p : Params} (h : p.ok = true) : p.pollMs ≠ 0 := by
  simp only [Params.ok, Bool.and_eq_true, bne_iff_ne] at h
  exact h.1.1.1.1.1.2

theorem chunk_pos {p : Params} (h : p.ok = true) : 1 ≤ p.chunk := by
  simp only [Params.ok, Bool.and_eq_true, decide_eq_true_iff] at h
  exact h.1.1.1.2

theorem pos_of_ne_zero {x : Word} (h : x ≠ 0) : 0 < x := by bv_omega

/-- A countdown that has just restarted runs, if its budget is not 0. -/
theorem recvInv_fresh {s : State} (hok : s.cfg.ok = true) (hfresh : Fresh s.parser) (hbudget : s.parser.budget ≠ 0)
    (h : BudgetInv s) : RecvInv s := by
  intro hst
  obtain ⟨hremaining, hticks, hpolls⟩ := hfresh
  rw [hremaining, hticks, hpolls]
  exact ⟨hbudget, BitVec.le_refl _, h hst, pos_of_ne_zero (pollMs_ne_zero hok), pos_of_ne_zero⟩

theorem budgetInv_booked {e : Event} {s t : State} (h : BudgetInv s) (hb : Booked e s t) : BudgetInv t := by
  cases hb with
  | response => rw [responseUpdate_frame]; exact h
  | consumed b =>
    intro hst
    have hparser := (consume_frame b s).parser
    rw [(consume_frame b s).state] at hst ⊢
    rw [hparser]
    exact h hst
  | opened => exact fun _ => rfl
  | _ => exact h

theorem recvInv_decided {s t : State} (h : BudgetInv s) (hs : Running s) (hok : s.cfg.ok = true) (hd : Decided s t) :
    RecvInv t := by
  cases hd with
  | finish | attempt | retryProbe | chunk => exact .of_not rfl
  | wait d w _ hdue =>
    refine .of_not ?_
    cases w with
    | xSettle | backoff | rawPace | rawSettle => rfl
    | _ => cases hdue
  | receives _ hbudget hfresh => exact recvInv_fresh hok hfresh hbudget h
  | stray hst hkind => exact absurd hkind (hs.not_stray hst)

/-- A tick that does not end the receive leaves its countdown running (42_at_sequencer R183). -/
theorem recvInv_recvCountdown {s : State} (hok : s.cfg.ok = true) (h : RecvInv s)
    (hgo : KeepsReceiving (recvCountdown s)) : RecvInv (recvCountdown s) := by
  intro hst
  obtain ⟨hne, hle, hbudget, hticks, hpolls⟩ := h hst
  obtain ⟨hleft, hcap⟩ := hgo
  have hpoll := pollMs_ne_zero hok
  refine ⟨hleft, ?_, hbudget, ?_, fun hmax => ?_⟩
  · change s.parser.remaining - 1 ≤ s.parser.budget
    bv_omega
  · change (if s.parser.pollTicks + 1 = s.cfg.pollMs then 0 else s.parser.pollTicks + 1) < s.cfg.pollMs
    split_ifs
    · exact pos_of_ne_zero hpoll
    · bv_omega
  · exact BitVec.not_le.1 fun hge => hcap ⟨hmax, hge⟩

theorem recvInv_still {s t : State} (hok : s.cfg.ok = true) (h : RecvInv s) (hst : Still s t) : RecvInv t := by
  cases hst with
  | receives _ hgo => exact recvInv_recvCountdown hok h hgo
  | waits hwait => exact .of_not (isRecv_of_isWait hwait)
  | paces hpace => exact .of_not (by simp [waitTick, countElapsed, hpace, isRecv])
  | drains hdrain => exact .of_not (by simp [countElapsed, hdrain, isRecv])
  | consumes b hrecv =>
    obtain ⟨hne, hle, hbudget, -⟩ := h hrecv
    refine recvInv_fresh ?_ (fresh_consume b s) ?_ (budgetInv_booked (e := .tick) (fun _ => hbudget) (.consumed b hrecv))
    · rw [(consume_frame b s).state]
      exact hok
    · rw [(consume_frame b s).parser]
      change s.parser.budget ≠ 0
      bv_omega
  | _ => exact h

/-! ### AT_RAW's progress (42_at_sequencer R209 to R213) -/

/-- The progress of AT_RAW while an event counts and books: `RawInv` but for the chunk in flight, which the event may have
counted as sent. -/
structure RawProgress (s : State) : Prop where
  bytes : s.seq.rawN.toNat = 4 * s.regs.outLen.toNat
  notEmpty : s.regs.outLen ≠ 0
  shown : s.regs.rawProgress = s.seq.rawPos
  within : s.seq.rawPos.toNat ≤ s.seq.rawN.toNat
  pacing : s.seq.st = .rawPace → s.seq.rawPos.toNat < s.seq.rawN.toNat
  all : s.seq.st = .rawSettle ∨ s.seq.st = .rawRecv → s.seq.rawPos = s.seq.rawN
  inTime : s.seq.st = .rawDrain ∨ s.seq.st = .rawPace → s.seq.rawElapsed < s.cfg.payloadTimeoutMs

/-- `RawProgress` while AT_RAW runs. -/
def RawMid (s : State) : Prop := s.seq.op = .raw → RawProgress s

/-- What `RawMid` looks at. -/
def State.rawView (s : State) : RunningOp × SeqState × (Word × Word) × (Word × Word) × (Word × Word) :=
  (s.seq.op, s.seq.st, (s.seq.rawN, s.regs.outLen), (s.regs.rawProgress, s.seq.rawPos),
    (s.seq.rawElapsed, s.cfg.payloadTimeoutMs))

theorem RawMid.same {s t : State} (h : RawMid s) (hsame : t.rawView = s.rawView) : RawMid t := by
  simp only [State.rawView, Prod.mk.injEq] at hsame
  obtain ⟨hop, hst, ⟨hn, hout⟩, ⟨hshown, hpos⟩, ⟨helapsed, htime⟩⟩ := hsame
  intro hraw
  have hs : RawProgress s := h (hop ▸ hraw)
  exact {
    bytes := by rw [hn, hout]; exact hs.bytes
    notEmpty := by rw [hout]; exact hs.notEmpty
    shown := by rw [hshown, hpos]; exact hs.shown
    within := by rw [hpos, hn]; exact hs.within
    pacing := by rw [hst, hpos, hn]; exact hs.pacing
    all := by rw [hst, hpos, hn]; exact hs.all
    inTime := by rw [hst, helapsed, htime]; exact hs.inTime }

theorem rawInv_finish (c : Result) (s : State) : RawInv (finish c s) := nofun

/-- Outside RAW_DRAIN nothing is in flight, and `RawInv` says the same as `RawMid`. -/
theorem rawMid_of_rawInv {s : State} (h : RawInv s) (hs : Running s) : RawMid s := by
  intro hop
  obtain ⟨hbytes, hempty, hshown, hdrain, hpace, hall, htime⟩ := h hop
  refine ⟨hbytes, hempty, hshown, ?_, hpace, hall, htime⟩
  have hraw : isRaw s.seq.st = true := hs.raw_iff.1 (hs.raw_op.2 hop)
  cases hst : s.seq.st with
  | rawDrain => have := (hdrain hst).2; omega
  | rawPace => exact (hpace hst).le
  | rawSettle => rw [hall (.inl hst)]
  | rawRecv => rw [hall (.inr hst)]
  | _ => rw [hst] at hraw; cases hraw

theorem rawMid_counted {s t : State} (h : RawInv s) (hs : CtrlInv s) (hc : Counted s t) : RawMid t := by
  have hmid : s.seq.st ≠ .idle → RawMid s := fun hst => rawMid_of_rawInv h (.of_ctrlInv hs hst)
  have hrun := running_counted hc hs
  cases hc with
  | nothing => exact hmid hrun.notIdle
  | poll | wait => exact (hmid hrun.notIdle).same rfl
  | pace _ htime =>
    intro hop
    have hs := hmid hrun.notIdle hop
    exact ⟨hs.bytes, hs.notEmpty, hs.shown, hs.within, hs.pacing, hs.all, fun _ => htime⟩
  | chunk hst =>
    intro hop
    obtain ⟨hbytes, hempty, -, hdrain, -, -, htime⟩ := h hop
    obtain ⟨-, hfits⟩ := hdrain hst
    have hst' : (chunkDrained s).seq.st = .rawDrain := hst
    refine ⟨hbytes, hempty, rfl, ?_, by simp [hst'], by simp [hst'], htime⟩
    change (s.seq.rawPos + s.seq.rawCur).toNat ≤ s.seq.rawN.toNat
    bv_omega

theorem rawMid_booked {e : Event} {s t : State} (h : RawMid s) (hs : Running s) (hb : Booked e s t) : RawMid t := by
  cases hb with
  | response =>
    rw [responseUpdate_frame]
    exact h.same rfl
  | consumed b =>
    rw [(consume_frame b s).state]
    exact h.same rfl
  | opened hst hpos =>
    intro hop
    obtain ⟨hbytes, hempty, hshown, hwithin, -, hall, -⟩ := h hop
    have hraw : isRaw s.seq.st = true := hs.raw_iff.1 (hs.raw_op.2 hop)
    have hkind : s.seq.kind = .raw := hs.raw_op.2 hop
    have hrecv : (openRecv s).seq.st = .rawRecv := by simp [openRecv, hkind]
    refine ⟨hbytes, hempty, hshown, hwithin, by simp [hrecv], fun _ => ?_, by simp [hrecv]⟩
    cases hx : s.seq.st with
    | rawDrain => exact hpos hx
    | rawSettle => exact hall (.inl hx)
    | rawPace | rawRecv => rw [hx] at hst; cases hst
    | _ => rw [hx] at hraw; cases hraw
  | _ => exact h.same rfl

theorem chunkSize_le (s : State) : chunkSize s ≤ (s.seq.rawN - s.seq.rawPos).toNat := Nat.min_le_right _ _

/-- A chunk is not empty and does not reach past the payload (42_at_sequencer R210). -/
theorem chunk_bounds {s : State} (hok : s.cfg.ok = true) (hlt : s.seq.rawPos.toNat < s.seq.rawN.toNat) :
    BitVec.ofNat 32 (chunkSize s) ≠ 0 ∧
      s.seq.rawPos.toNat + (BitVec.ofNat 32 (chunkSize s)).toNat ≤ s.seq.rawN.toNat := by
  have hchunk := chunk_pos hok
  have hsize : chunkSize s = min s.cfg.chunk (s.seq.rawN - s.seq.rawPos).toNat := rfl
  have hleft : (s.seq.rawN - s.seq.rawPos).toNat = s.seq.rawN.toNat - s.seq.rawPos.toNat := by bv_omega
  have hbound := s.seq.rawN.isLt
  have hvalue : (BitVec.ofNat 32 (chunkSize s)).toNat = chunkSize s := by
    rw [BitVec.toNat_ofNat, Nat.mod_eq_of_lt (by omega)]
  refine ⟨fun hzero => ?_, by omega⟩
  rw [hzero] at hvalue
  change 0 = chunkSize s at hvalue
  omega

theorem rawInv_decided {s t : State} (h : RawMid s) (hs : Running s) (hok : s.cfg.ok = true) (hd : Decided s t) :
    RawInv t := by
  cases hd with
  | finish c => exact rawInv_finish c s
  | attempt _ hdue =>
    intro hop
    rw [show (attemptStarted s).seq.op = s.seq.op from rfl, hs.attemptDue hdue] at hop
    cases hop
  | retryProbe _ hkind _ =>
    intro hop
    rw [show (exchangeStarted .retryProbe s.cfg.probeCmd s).seq.op = s.seq.op from rfl,
      hs.exec (.inr (.inr (.inr hkind)))] at hop
    cases hop
  | wait d w _ hdue =>
    intro hop
    obtain ⟨hbytes, hempty, hshown, hwithin, -, -, htime⟩ := h hop
    refine ⟨hbytes, hempty, hshown, ?_⟩
    cases w with
    | rawPace =>
      obtain ⟨hst, hne⟩ := hdue
      refine ⟨nofun, fun _ => ?_, by simp, fun _ => htime (.inl hst)⟩
      change s.seq.rawPos.toNat < s.seq.rawN.toNat
      bv_omega
    | rawSettle => exact ⟨nofun, nofun, fun _ => hdue.2, by simp⟩
    | xSettle | backoff => exact ⟨nofun, nofun, by simp, by simp⟩
    | _ => cases hdue
  | chunk _ hst =>
    intro hop
    obtain ⟨hbytes, hempty, hshown, hwithin, hpace, -, htime⟩ := h hop
    have hlt : s.seq.rawPos.toNat < s.seq.rawN.toNat := by
      obtain hst | ⟨-, hne⟩ := hst
      · exact hpace hst
      · bv_omega
    have hin : s.seq.rawElapsed < s.cfg.payloadTimeoutMs := htime (hst.symm.imp And.left id)
    exact ⟨hbytes, hempty, hshown, fun _ => chunk_bounds hok hlt, nofun, by simp [chunkSent], fun _ => hin⟩
  | receives hst _ _ =>
    intro hop
    obtain ⟨hbytes, hempty, hshown, -, hpace, hall, htime⟩ := h hop
    exact ⟨hbytes, hempty, hshown, fun hx => by simp [hx, isRecv] at hst, hpace, hall, htime⟩
  | stray hst hkind => exact absurd hkind (hs.not_stray hst)

theorem rawInv_still {s t : State} (h : RawInv s) (hst : Still s t) : RawInv t := by
  cases hst with
  | paces _ htime =>
    intro hop
    obtain ⟨hbytes, hempty, hshown, hdrain, hpace, hall, -⟩ := h hop
    exact ⟨hbytes, hempty, hshown, hdrain, hpace, hall, fun _ => htime⟩
  | drains _ htime =>
    intro hop
    obtain ⟨hbytes, hempty, hshown, hdrain, hpace, hall, -⟩ := h hop
    exact ⟨hbytes, hempty, hshown, hdrain, hpace, hall, fun _ => htime⟩
  | consumes b => rw [(consume_frame b s).state]; exact h
  | _ => exact h

/-! ### Assembly -/

/-- `Safe` in its parts. -/
theorem safe_iff {s : State} :
    Safe s ↔ DataInv s ∧ CtrlInv s ∧ AttemptInv s ∧ OperandInv s ∧ RecvInv s ∧ RawInv s := by
  constructor
  · rintro ⟨hcfg, hctrl, hatt, hopd, ⟨hlen, hprint, hpay, hrecv⟩, hqueue, hresp, hout, hraw, hmem⟩
    exact ⟨⟨hcfg, hlen, hprint, hpay, hqueue, hresp, hout, hmem⟩, hctrl, hatt, hopd, hrecv, hraw⟩
  · rintro ⟨⟨hcfg, hlen, hprint, hpay, hqueue, hresp, hout, hmem⟩, hctrl, hatt, hopd, hrecv, hraw⟩
    exact ⟨hcfg, hctrl, hatt, hopd, ⟨hlen, hprint, hpay, hrecv⟩, hqueue, hresp, hout, hraw, hmem⟩

/-- What holds while an event counts, books and decides. -/
structure Mid (s : State) : Prop where
  running : Running s
  data : DataInv s
  attempts : AttemptInv s
  operands : OperandInv s
  budget : BudgetInv s
  raw : RawMid s

/-- An op that ends leaves a good state. -/
theorem safe_finish {s : State} (h : DataInv s) (c : Result) : Safe (finish c s) :=
  safe_iff.2 ⟨h.finish c, ctrlInv_finish c s, attemptInv_finish c s, operandInv_finish c s, .of_not rfl,
    rawInv_finish c s⟩

theorem safe_still {s t : State} (hst : Still s t) (h : Safe s) : Safe t := by
  obtain ⟨hdata, hctrl, hatt, hopd, hrecv, hraw⟩ := safe_iff.1 h
  refine safe_iff.2 ⟨hdata.still hst, ctrlInv_still hst hctrl, ?_, ?_, recvInv_still hdata.cfg hrecv hst,
    rawInv_still hraw hst⟩
  · cases hst with
    | consumes b => rw [(consume_frame b s).state]; exact hatt
    | _ => exact hatt
  · cases hst with
    | consumes b => rw [(consume_frame b s).state]; exact hopd
    | _ => exact hopd

theorem mid_counted {s t : State} (hc : Counted s t) (h : Safe s) : Mid t := by
  obtain ⟨hdata, hctrl, hatt, hopd, hrecv, hraw⟩ := safe_iff.1 h
  have hbudget : BudgetInv s := fun hst => (hrecv hst).2.2.1
  refine ⟨running_counted hc hctrl, hdata.counted hc, ?_, ?_, ?_, rawMid_counted hraw hctrl hc⟩
  · cases hc <;> exact hatt
  · cases hc <;> exact hopd
  · cases hc <;> exact hbudget

theorem mid_booked {e : Event} {s t : State} (hb : Booked e s t) (h : Mid s) : Mid t :=
  ⟨h.running.booked hb, h.data.booked hb, attemptInv_booked h.attempts hb, operandInv_booked h.operands hb,
    budgetInv_booked h.budget hb, rawMid_booked h.raw h.running hb⟩

theorem safe_decided {s t : State} (hd : Decided s t) (h : Mid s) : Safe t :=
  safe_iff.2 ⟨h.data.decided hd, ctrlInv_decided hd h.running, attemptInv_decided h.attempts h.running hd,
    operandInv_decided h.operands hd, recvInv_decided h.budget h.running h.data.cfg hd,
    rawInv_decided h.raw h.running h.data.cfg hd⟩

theorem safe_unitEvent {e : Event} {s t : State} (h : UnitEvent e s t) (hs : Safe s) : Safe t := by
  refine h.keeps (M := Mid) (fun _ _ => safe_still) (fun u hu => ?_) (fun _ u hu => ?_) (fun _ _ => mid_counted)
    (fun _ _ => mid_booked) (fun _ _ => safe_decided) hs
  · exact safe_finish ((safe_iff.1 hu).1.same (t := countElapsed u) rfl) _
  · exact safe_finish ((safe_iff.1 hu).1.same (t := setOutcome .invalid u) rfl) _

/-! ### Commands, host writes, the release of reset -/

theorem payloadTimeoutMs_ne_zero {p : Params} (h : p.ok = true) : p.payloadTimeoutMs ≠ 0 := by
  simp only [Params.ok, Bool.and_eq_true, bne_iff_ne] at h
  exact h.1.1.2

/-- What AT_EXEC's argument checks leave (42_at_sequencer R196). -/
theorem execArgsBad_eq_false {flags : BitVec 4} {s : State} : execArgsBad flags s = false ↔
    s.regs.atCmdlen ≠ 0 ∧ s.regs.atCmdlen.toNat ≤ cmdCap ∧ s.regs.atRetries ≠ 0 ∧
      (flags.getLsbD 1 = true → s.regs.atMarklen.toNat ≤ markCap) := by
  simp [execArgsBad, and_assoc]

section
variable {s : State} (hs : DataInv s)
include hs

theorem DataInv.probeLatched : DataInv (probeLatched s) := hs.latched rfl rfl rfl rfl rfl rfl rfl rfl

theorem DataInv.execLatched (flags : BitVec 4) : DataInv (execLatched flags s) :=
  hs.latched rfl rfl rfl rfl rfl rfl rfl rfl

theorem DataInv.rawLatched : DataInv (rawLatched s) := hs.latched rfl rfl rfl rfl rfl rfl rfl rfl

/-- AT_RAW's progress as it starts (42_at_sequencer R209, R210). -/
theorem rawInv_chunkSent_rawLatched (hempty : s.regs.outLen ≠ 0) : RawInv (chunkSent (Machine.rawLatched s)) := by
  intro _
  have hcap : s.regs.outLen.toNat ≤ 512 := hs.out.1
  have hbytes : (Machine.rawLatched s).seq.rawN.toNat = 4 * s.regs.outLen.toNat := by
    change (4 * s.regs.outLen).toNat = _
    bv_omega
  have hlt : (Machine.rawLatched s).seq.rawPos.toNat < (Machine.rawLatched s).seq.rawN.toNat := by
    rw [hbytes]
    change 0 < _
    bv_omega
  exact ⟨hbytes, hempty, rfl, fun _ => chunk_bounds (s := Machine.rawLatched s) hs.cfg hlt, nofun, by simp [chunkSent],
    fun _ => pos_of_ne_zero (payloadTimeoutMs_ne_zero hs.cfg)⟩

end

theorem safe_opResult {s t : State} (h : OpResult s t) (hs : DataInv s) (hidle : Idle s) (hdone : s.status.done = false) :
    Safe t := by
  obtain ⟨-, hcancel, -⟩ := idle_control hidle
  have hctrl := ctrlInv_opResult h hidle hdone
  cases h with
  | complete c => exact safe_finish hs c
  | results r0 r1 =>
    exact safe_finish (hs.same (t := s.setRegs { s.regs with res0 := r0, res1 := r1 }) rfl) _
  | encodingFails =>
    have hempty : DataInv (s.setRegs { s.regs with outLen := 0, frTextwords := 0 }) :=
      ⟨hs.cfg, hs.lineLength, hs.printable, hs.payload, hs.queue, hs.resp, ⟨Nat.zero_le _, BitVec.le_refl _⟩, hs.mem⟩
    exact safe_finish hempty _
  | frame ws n hfits hn =>
    exact safe_iff.2 ⟨hs.frame hfits hn, hctrl, attemptInv_finish _ _, operandInv_finish _ _, .of_not rfl,
      rawInv_finish _ _⟩
  | probe =>
    rw [startExchange_sends (s := probeLatched s) hcancel] at hctrl ⊢
    refine safe_iff.2 ⟨hs.probeLatched.exchangeStarted _ _, hctrl, ⟨nofun, nofun, nofun, ?_, fun _ => rfl, nofun⟩,
      ⟨nofun, nofun⟩, .of_not rfl, nofun⟩
    simp [exchangeStarted, exchanging]
  | readyProbe flags hargs =>
    obtain ⟨hlen, hcap, hretries, hmark⟩ := execArgsBad_eq_false.1 hargs
    rw [startExchange_sends (s := execLatched flags s) hcancel] at hctrl ⊢
    refine safe_iff.2 ⟨(hs.execLatched flags).exchangeStarted _ _, hctrl,
      ⟨fun _ => ⟨hretries, BitVec.le_def.2 (Nat.zero_le _)⟩, fun _ => rfl, nofun, ?_, nofun, nofun⟩,
      ⟨fun _ => ⟨hlen, hcap, rfl, rfl, hmark⟩, nofun⟩, .of_not rfl, nofun⟩
    simp [exchangeStarted, exchanging]
  | attempt flags hargs =>
    obtain ⟨hlen, hcap, hretries, hmark⟩ := execArgsBad_eq_false.1 hargs
    rw [beginAttempt_sends (s := execLatched flags s) hcancel] at hctrl ⊢
    have hone : (0 : BitVec 8) + 1 ≤ s.regs.atRetries := by bv_omega
    have hdata : DataInv ((execLatched flags s).setStatus { (execLatched flags s).status with attempts := 0 + 1 }) :=
      hs.latched rfl rfl rfl rfl rfl rfl rfl rfl
    refine safe_iff.2 ⟨hdata.exchangeStarted _ _, hctrl,
      ⟨fun _ => ⟨hretries, hone⟩, nofun, fun _ => (by decide : (0 : BitVec 8) + 1 ≠ 0), ?_, nofun, nofun⟩,
      ⟨fun _ => ⟨hlen, hcap, rfl, rfl, hmark⟩, nofun⟩, .of_not rfl, nofun⟩
    simp [attemptStarted, exchangeStarted, exchanging]
  | raw hempty =>
    rw [rawChunk_sends (s := rawLatched s) hcancel] at hctrl ⊢
    refine safe_iff.2 ⟨hs.rawLatched.same rfl, hctrl, ⟨nofun, nofun, nofun, ?_, nofun, fun _ => rfl⟩,
      ⟨nofun, fun _ => rfl⟩, .of_not rfl, rawInv_chunkSent_rawLatched hs hempty⟩
    simp [chunkSent, rawLatched, latchRaw]

theorem safe_busWritten {v : Word} {s t : State} (h : BusWritten v s t) (hs : Safe s) : Safe t := by
  obtain ⟨hdata, hctrl, hatt, hopd, hrecv, hraw⟩ := safe_iff.1 hs
  refine safe_iff.2 ⟨hdata.busWritten h, ctrlInv_busWritten h hctrl, ?_, operandInv_busWritten hopd hctrl h, ?_, ?_⟩
  all_goals
    cases h with
    | ctrl => rw [writeCtrl_eq]; assumption
    | _ => assumption

/-- The release of reset leaves a good state, whatever the buffers hold then (70_reset R270, R271). -/
theorem safe_resetRelease {s : State} (h : s.cfg.ok = true) : Safe (resetRelease s) := by
  have hmem : (resetRelease s).mem.wf := by
    simp only [resetRelease]
    exact Memory.wf_afterReset s.resets
  have hdata : DataInv (resetRelease s) := ⟨h, Nat.zero_le _, nofun, nofun, Nat.zero_le _, ⟨fun _ => rfl, nofun⟩,
    ⟨Nat.zero_le _, BitVec.le_refl _⟩, hmem⟩
  have hseq : (resetRelease s).seq = Seq.reset := rfl
  exact safe_iff.2 ⟨hdata, ctrlInv_reset s.cfg, by simp [AttemptInv, hseq, Seq.reset], by simp [OperandInv, hseq, Seq.reset],
    .of_not rfl, nofun⟩

/-- Settles O47: the invariant in its parts, each kept within an event and by its decision. -/
theorem safeKept : Obligations.SafeKept := by
  intro s t hs h
  have hdata := (safe_iff.1 hs).1
  cases step_case h with
  | noEvent | ignored | asserted | rejected => exact hs
  | released => exact safe_resetRelease hdata.cfg
  | command v rest _ _ hbusy hresult =>
    exact safe_opResult hresult (hdata.same rfl) (idle_accepted ⟨hs.2.1, hbusy⟩) rfl
  | write _ _ _ _ _ hwritten => exact safe_busWritten hwritten hs
  | read _ _ _ hread => obtain rfl | rfl := hread <;> exact hs
  | tick _ _ _ hevent => exact safe_unitEvent hevent hs
  | event _ _ _ _ _ hevent => exact safe_unitEvent hevent hs

end Sys2Proof.Machine
end

section
/-! SUPPORT. What AT_RAW has sent (42_at_sequencer R209 to R213; 20_memory R65): OUT does not change while it is read, and
each chunk continues the bytes before it. -/

namespace Sys2Proof.Machine

/-! ### The bytes read and the bytes sent -/

/-- RESP lies below OUT, so a payload put there leaves OUT alone (10_state R20). -/
theorem payloadBytes_responseUpdate {s : State} (h : DataInv s) (i n : Nat) :
    payloadBytes (responseUpdate s) i n = payloadBytes s i n := by
  unfold responseUpdate
  split
  · next p hp =>
    have hlen : p.length ≤ 256 := (h.payload p hp).2
    refine Memory.readBytes_write_outside (.inr ?_)
    simp only [respBase, outBase]
    omega
  · rfl

theorem payloadBytes_add (s : State) (i n : Nat) : payloadBytes s 0 (i + n) = payloadBytes s 0 i ++ payloadBytes s i n := by
  simp only [payloadBytes, Nat.add_zero]
  exact Memory.readBytes_add _ _ _ _

theorem txBytes_chunk (es : List OutEvent) (bs : List Byte) :
    txBytes (es ++ (bs.map .tx ++ [.drainReq])) = txBytes es ++ bs := by
  simp [txBytes, List.filterMap_append, List.filterMap_map]

/-- Within an event: everything before `raw_pos` has been sent. -/
def SentMid (s : State) : Prop := s.seq.op = .raw → payloadBytes s 0 s.seq.rawPos.toNat <:+ txBytes s.trace

/-- A chunk goes on where the last one ended (42_at_sequencer R210). -/
theorem rawSent_chunkSent {s : State}
    (h : payloadBytes s 0 s.seq.rawPos.toNat <:+ txBytes s.trace) : RawSent (chunkSent s) := by
  have hsize : (BitVec.ofNat 32 (chunkSize s)).toNat = chunkSize s := by
    have hle := chunkSize_le s
    rw [BitVec.toNat_ofNat, Nat.mod_eq_of_lt (hle.trans_lt (BitVec.isLt _))]
  refine ⟨fun _ => ?_, nofun, by simp [chunkSent]⟩
  change payloadBytes s 0 (s.seq.rawPos.toNat + (BitVec.ofNat 32 (chunkSize s)).toNat) <:+
    txBytes (s.trace ++ ((payloadBytes s s.seq.rawPos.toNat (chunkSize s)).map .tx ++ [.drainReq]))
  rw [hsize, payloadBytes_add, txBytes_chunk]
  obtain ⟨before, hbefore⟩ := h
  exact ⟨before, by rw [← hbefore, List.append_assoc]⟩

theorem rawSent_of_not_raw {s : State} (h : isRaw s.seq.st = false) : RawSent s := by
  refine ⟨fun hst => ?_, fun hst => ?_, fun hst => ?_⟩
  · simp [hst, isRaw] at h
  · simp [hst, isRaw] at h
  · obtain hst | hst := hst <;> simp [hst, isRaw] at h

/-! ### Through an event -/

theorem rawSent_still {s t : State} (hst : Still s t) (h : RawSent s) : RawSent t := by
  cases hst with
  | consumes b => rw [(consume_frame b s).state]; exact h
  | _ => exact h

/-- Once the whole payload is sent, `raw_pos` is its end. -/
theorem sentMid_of_all {s : State} (h : RawSent s) (hraw : RawMid s) (hst : s.seq.st = .rawSettle ∨ s.seq.st = .rawRecv) :
    SentMid s := by
  intro hop
  rw [(hraw hop).all hst]
  exact h.2.2 hst

theorem sentMid_counted {s t : State} (hc : Counted s t) (hs : Safe s) (h : RawSent s) : SentMid t := by
  obtain ⟨-, hctrl, -, -, -, hraw⟩ := safe_iff.1 hs
  have hrun := (mid_counted hc hs).running
  intro hop
  have hst : isRaw t.seq.st = true := hrun.raw_iff.1 (hrun.raw_op.2 hop)
  have hmid : s.seq.st ≠ .idle → RawMid s := fun hne => rawMid_of_rawInv hraw (.of_ctrlInv hctrl hne)
  have hall (hx : s.seq.st = .rawSettle ∨ s.seq.st = .rawRecv) : SentMid s :=
    sentMid_of_all h (hmid (by obtain hx | hx := hx <;> simp [hx])) hx
  cases hc with
  | nothing hx =>
    obtain hx | hx := hx
    · simp [isRaw_of_isExchange hx] at hst
    · exact hall (.inr hx) hop
  | wait hwait hpace =>
    change isRaw s.seq.st = true at hst
    cases hx : s.seq.st with
    | rawSettle => exact hall (.inl hx) hop
    | rawPace => exact absurd hx hpace
    | rawDrain | rawRecv => rw [hx] at hwait; cases hwait
    | _ => rw [hx] at hst; cases hst
  | pace hx => exact h.2.1 hx
  | poll hrecv =>
    change isRaw s.seq.st = true at hst
    cases hx : s.seq.st with
    | rawRecv => exact hall (.inr hx) hop
    | rawDrain | rawPace | rawSettle => rw [hx] at hrecv; cases hrecv
    | _ => rw [hx] at hst; cases hst
  | chunk hx =>
    have hfits := ((hraw hop).2.2.2.1 hx).2
    have hbound := s.seq.rawN.isLt
    change payloadBytes s 0 (s.seq.rawPos + s.seq.rawCur).toNat <:+ txBytes s.trace
    rw [BitVec.toNat_add, Nat.mod_eq_of_lt (by omega)]
    exact h.1 hx

theorem sentMid_booked {e : Event} {s t : State} (hb : Booked e s t) (hs : DataInv s) (h : SentMid s) : SentMid t := by
  cases hb with
  | response =>
    intro hop
    rw [payloadBytes_responseUpdate hs]
    rw [responseUpdate_frame] at hop ⊢
    exact h hop
  | consumed b => rw [(consume_frame b s).state]; exact h
  | _ => exact h

theorem rawSent_decided {s t : State} (hd : Decided s t) (hs : Mid s) (h : SentMid s) : RawSent t := by
  have hop (hst : isRaw s.seq.st = true) : s.seq.op = .raw := hs.running.raw_op.1 (hs.running.raw_iff.2 hst)
  cases hd with
  | finish | attempt | retryProbe => exact rawSent_of_not_raw rfl
  | wait d w _ hdue =>
    cases w with
    | xSettle | backoff => exact rawSent_of_not_raw rfl
    | rawPace => exact ⟨nofun, fun _ => h (hop (by rw [hdue.1]; rfl)), by simp⟩
    | rawSettle =>
      refine ⟨nofun, nofun, fun _ => ?_⟩
      change payloadBytes s 0 s.seq.rawN.toNat <:+ txBytes s.trace
      rw [← hdue.2]
      exact h (hop (by rw [hdue.1]; rfl))
    | _ => cases hdue
  | chunk _ hst =>
    exact rawSent_chunkSent (h (hop (by obtain hst | ⟨hst, -⟩ := hst <;> rw [hst] <;> rfl)))
  | receives hst _ _ =>
    refine ⟨fun hx => by simp [hx, isRecv] at hst, fun hx => by simp [hx, isRecv] at hst, fun hx => ?_⟩
    have hraw := hop (by obtain hx | hx := hx <;> rw [hx] <;> rfl)
    rw [← (hs.raw hraw).all hx]
    exact h hraw
  | stray hst hkind => exact absurd hkind (hs.running.not_stray hst)

theorem rawSent_unitEvent {e : Event} {s t : State} (h : UnitEvent e s t) (hs : Safe s) (hsent : RawSent s) : RawSent t :=
  (h.keeps (P := fun u => Safe u ∧ RawSent u) (M := fun u => Mid u ∧ SentMid u)
    (fun _ _ hst hu => ⟨safe_still hst hu.1, rawSent_still hst hu.2⟩)
    (fun _ hu => ⟨safe_unitEvent (e := e) .timedOut hu.1, rawSent_of_not_raw rfl⟩)
    (fun he _ hu => ⟨safe_unitEvent (.failed he) hu.1, rawSent_of_not_raw rfl⟩)
    (fun _ _ hc hu => ⟨mid_counted hc hu.1, sentMid_counted hc hu.1 hu.2⟩)
    (fun _ _ hb hu => ⟨mid_booked hb hu.1, sentMid_booked hb hu.1.data hu.2⟩)
    (fun _ _ hd hu => ⟨safe_decided hd hu.1, rawSent_decided hd hu.1 hu.2⟩) ⟨hs, hsent⟩).2

/-! ### Through the other steps -/

theorem rawSent_opResult {s t : State} (h : OpResult s t) (hidle : Idle s) : RawSent t := by
  obtain ⟨-, hcancel, -⟩ := idle_control hidle
  cases h with
  | complete | results | encodingFails | frame => exact rawSent_of_not_raw rfl
  | probe => rw [startExchange_sends (s := probeLatched s) hcancel]; exact rawSent_of_not_raw rfl
  | readyProbe flags => rw [startExchange_sends (s := execLatched flags s) hcancel]; exact rawSent_of_not_raw rfl
  | attempt flags => rw [beginAttempt_sends (s := execLatched flags s) hcancel]; exact rawSent_of_not_raw rfl
  | raw =>
    rw [rawChunk_sends (s := rawLatched s) hcancel]
    exact rawSent_chunkSent (s := rawLatched s) List.nil_suffix

/-- No host write reaches OUT (10_state R44). -/
theorem rawSent_busWritten {v : Word} {s t : State} (h : BusWritten v s t) (hs : RawSent s) : RawSent t := by
  cases h with
  | ctrl => rw [writeCtrl_eq]; exact hs
  | buffer a ha =>
    have hsame (n : Nat) : payloadBytes (s.setMem (s.mem.writeWord a v)) 0 n = payloadBytes s 0 n := by
      refine Memory.readBytes_write_outside (.inr ?_)
      rw [length_bytesOfWord, outBase]
      omega
    simp only [RawSent, hsame]
    exact hs
  | _ => exact hs

/-- Settles O43: within an event everything before `raw_pos` has been sent, and a chunk goes on from there. -/
theorem rawSentKept : Obligations.RawSentKept := by
  intro s t hs hsent h
  cases step_case h with
  | noEvent | ignored | asserted | rejected => exact hsent
  | released => exact rawSent_of_not_raw rfl
  | command v rest _ _ hbusy hresult =>
    exact rawSent_opResult hresult (idle_accepted ⟨hs.2.1, hbusy⟩)
  | write _ _ _ _ _ hwritten => exact rawSent_busWritten hwritten hsent
  | read _ _ _ hread => obtain rfl | rfl := hread <;> exact hsent
  | tick _ _ _ hevent => exact rawSent_unitEvent hevent hs hsent
  | event _ _ _ _ _ hevent => exact rawSent_unitEvent hevent hs hsent

end Sys2Proof.Machine
end

section
/-! SUPPORT. Rules about every step of the at unit: what is taken and emitted, what a pending cancellation silences, where
INVALID and the liveness time come from, and that the units stay apart. -/

namespace Sys2Proof.Machine

/-! ### What is taken and emitted (42_at_sequencer R172; 20_memory R66) -/

/-- From `s` to `t` the outputs are only added to, and neither the events to come nor the parameters change. -/
structure OnlyEmits (s t : State) : Prop where
  inbox : t.inbox = s.inbox
  trace : s.trace <+: t.trace
  cfg : t.cfg = s.cfg

theorem OnlyEmits.of_same {s t : State} (hinbox : t.inbox = s.inbox) (htrace : t.trace = s.trace) (hcfg : t.cfg = s.cfg) :
    OnlyEmits s t :=
  ⟨hinbox, htrace ▸ List.prefix_rfl, hcfg⟩

theorem OnlyEmits.trans {s t u : State} (h : OnlyEmits s t) (k : OnlyEmits t u) : OnlyEmits s u :=
  ⟨k.inbox.trans h.inbox, h.trace.trans k.trace, k.cfg.trans h.cfg⟩

theorem OnlyEmits.after_same {s u t : State} (h : OnlyEmits u t) (hinbox : u.inbox = s.inbox) (htrace : u.trace = s.trace)
    (hcfg : u.cfg = s.cfg) : OnlyEmits s t :=
  (OnlyEmits.of_same hinbox htrace hcfg).trans h

theorem Move.onlyEmits {s t : State} (h : Move s t) : OnlyEmits s t := by
  cases h with
  | exchange | chunk => exact ⟨rfl, List.prefix_append _ _, rfl⟩
  | responseUpdate => rw [responseUpdate_frame]; exact .of_same rfl rfl rfl
  | _ => exact .of_same rfl rfl rfl

theorem Moves.onlyEmits {s t : State} (h : Moves s t) : OnlyEmits s t :=
  h.keeps (P := OnlyEmits s) (fun _ _ hm hs => hs.trans hm.onlyEmits) (.of_same rfl rfl rfl)

theorem OpEffect.onlyEmits {s t : State} (h : OpEffect s t) : OnlyEmits s t := by
  cases h with
  | complete | results | encodingFails | frame => exact .of_same rfl rfl rfl
  | probe h | exec _ h | raw h => exact h.onlyEmits.after_same rfl rfl rfl

theorem BusWritten.onlyEmits {v : Word} {s t : State} (h : BusWritten v s t) : OnlyEmits s t := by
  cases h with
  | ctrl => rw [writeCtrl_eq]; exact .of_same rfl rfl rfl
  | _ => exact .of_same rfl rfl rfl

theorem runEvent_onlyEmits {e : Event} {s t : State} (h : runEvent e s = .next t) : OnlyEmits s t := by
  obtain ⟨v, -, hc⟩ | ⟨off, v, -, -, rfl⟩ | ⟨off, -, rfl⟩ | ⟨-, rfl⟩ | ⟨b, -, rfl⟩ | ⟨-, rfl⟩ | ⟨-, rfl⟩ |
    ⟨-, rfl⟩ | ⟨-, rfl⟩ := runEvent_cases h
  · obtain ⟨-, rfl⟩ | ⟨-, heffect⟩ := command_effect hc
    · exact .of_same rfl rfl rfl
    · exact heffect.onlyEmits.after_same rfl rfl rfl
  · exact (busWritten off v s).onlyEmits
  · obtain ⟨w, h | h⟩ := busRead_cases off s <;> rw [h] <;> exact .of_same rfl rfl rfl
  · exact (tickAction_moves (advanceNow s)).onlyEmits.after_same rfl rfl rfl
  · exact (onRx_moves b s).onlyEmits
  · exact (onChErr_moves s).onlyEmits
  · exact (onDrainDone_moves s).onlyEmits
  · exact .of_same rfl rfl rfl
  · exact .of_same rfl rfl rfl

theorem heldEvent_onlyEmits (e : Event) (s : State) : OnlyEmits s (heldEvent e s) := by
  by_cases he : e = .resetRelease
  · subst he; exact .of_same rfl rfl rfl
  · rw [heldEvent_ignored he]; exact .of_same rfl rfl rfl

/-- Settles O56: a step takes the oldest event off the inbox, and what the event does only emits. -/
theorem eventsTakenInOrder : Obligations.EventsTakenInOrder := by
  intro s
  obtain ⟨t, h⟩ := step_next s
  refine ⟨t, h, ?_⟩
  obtain ⟨hi, rfl⟩ | ⟨e, es, hi, -, rfl⟩ | ⟨e, es, hi, -, hrun⟩ := step_cases h
  · simp [hi]
  · obtain ⟨hinbox, htrace, hcfg⟩ := heldEvent_onlyEmits e (s.setInbox es)
    exact ⟨by rw [hinbox, hi]; rfl, htrace, hcfg⟩
  · obtain ⟨hinbox, htrace, hcfg⟩ := runEvent_onlyEmits hrun
    exact ⟨by rw [hinbox, hi]; rfl, htrace, hcfg⟩

/-! ### What counting, bookkeeping and staying put leave alone -/

/-- The kind of the exchange, a pending cancellation and the outputs. -/
def State.boundaryView (s : State) : Kind × Bool × List OutEvent := (s.seq.kind, s.status.cancelPend, s.trace)

theorem Still.boundaryView {s t : State} (h : Still s t) : t.boundaryView = s.boundaryView := by
  cases h with
  | consumes b => rw [(consume_frame b s).state]; rfl
  | _ => rfl

theorem Counted.boundaryView {s t : State} (h : Counted s t) : t.boundaryView = s.boundaryView := by
  cases h <;> rfl

theorem Booked.boundaryView {e : Event} {s t : State} (h : Booked e s t) : t.boundaryView = s.boundaryView := by
  cases h with
  | response => rw [responseUpdate_frame]; rfl
  | consumed b => rw [(consume_frame b s).state]; rfl
  | _ => rfl

theorem State.boundaryView_inj {s t : State} (h : t.boundaryView = s.boundaryView) :
    t.seq.kind = s.seq.kind ∧ t.status.cancelPend = s.status.cancelPend ∧ t.trace = s.trace := by
  simpa [State.boundaryView] using h

/-! ### A pending cancellation (42_at_sequencer R217) -/

/-- Silent since `s`, and still cancelling or ended. -/
def Silenced (s t : State) : Prop := t.trace = s.trace ∧ (t.status.cancelPend = true ∨ t.seq.st = .idle)

/-- No boundary goes on while a cancellation is pending, so no decision emits. -/
theorem Decided.silent {s t : State} (h : Decided s t) (hc : s.status.cancelPend = true) : Silenced s t := by
  cases h with
  | finish => exact ⟨rfl, .inr rfl⟩
  | attempt hnot => simp [hc] at hnot
  | retryProbe hnot => simp [hc] at hnot
  | chunk hnot => simp [hc] at hnot
  | wait | receives | stray => exact ⟨rfl, .inl hc⟩

theorem UnitEvent.silent {e : Event} {s t : State} (h : UnitEvent e s t) (hc : s.status.cancelPend = true) :
    Silenced s t := by
  refine h.leads (M := fun u => u.boundaryView = s.boundaryView) (fun t hst => ?_) ⟨rfl, .inr rfl⟩
    (fun _ => ⟨rfl, .inr rfl⟩) (fun u hcount => hcount.boundaryView) (fun u v hb hu => hb.boundaryView.trans hu)
    fun v t hd hv => ?_
  · obtain ⟨-, hpend, htrace⟩ := State.boundaryView_inj hst.boundaryView
    exact ⟨htrace, .inl (hpend.trans hc)⟩
  · obtain ⟨-, hpend, htrace⟩ := State.boundaryView_inj hv
    obtain ⟨hsame, hdone⟩ := hd.silent (hpend.trans hc)
    exact ⟨hsame.trans htrace, hdone⟩

theorem step_silent {s t : State} (hs : CtrlInv s) (hc : s.status.cancelPend = true) (h : step s = .next t) :
    Silenced s t := by
  have hbusy : s.status.busy = true := hs.2.2.2.1 hc
  cases step_case h with
  | noEvent | ignored | asserted | rejected => exact ⟨rfl, .inl hc⟩
  | released => exact ⟨rfl, .inr rfl⟩
  | command _ _ _ _ hidle => simp [hbusy] at hidle
  | write _ _ _ _ _ hwritten =>
    cases hwritten with
    | ctrl => rw [writeCtrl_eq]; exact ⟨rfl, .inl (by simp [hc])⟩
    | _ => exact ⟨rfl, .inl hc⟩
  | read _ _ _ hread => obtain rfl | rfl := hread <;> exact ⟨rfl, .inl hc⟩
  | tick rest _ _ hevent => exact hevent.silent (s := advanceNow (s.setInbox rest)) hc
  | event _ rest _ _ _ hevent => exact hevent.silent (s := s.setInbox rest) hc

/-- The chunk's size in natural numbers (42_at_sequencer R210). -/
theorem chunkSize_eq {s : State} (h : s.seq.rawPos < s.seq.rawN) :
    chunkSize s = min s.cfg.chunk (s.seq.rawN.toNat - s.seq.rawPos.toNat) := by
  rw [chunkSize, BitVec.toNat_sub_of_le (BitVec.le_of_lt h)]

/-- Settles O40: every boundary asks for a pending cancellation, and only boundaries emit. -/
theorem pendingCancelSilencesOutput : Obligations.PendingCancelSilencesOutput := by
  refine ⟨fun s t hs hc h => step_silent hs hc h, fun s t hc ht => ?_, fun s hc => ⟨fun k bs => ?_, ?_, ?_⟩⟩
  · obtain ⟨k, bs, rfl⟩ | rfl | rfl := ht
    · rw [startExchange_cancelled hc]; rfl
    · rw [beginAttempt_cancelled hc]; rfl
    · rw [rawChunk_cancelled hc]; rfl
  · rw [startExchange_sends hc]
    simp [exchangeStarted, exchanging, exchangeOutput, State.setSeq]
  · rw [beginAttempt_sends hc]
    simp [attemptStarted, exchangeStarted, exchanging, exchangeOutput, State.setSeq, State.setStatus, commandBytes,
      cmdbufBase]
  · rintro hlt n rfl
    rw [rawChunk_sends hc, chunkSent, chunkSize_eq hlt]
    simp [State.emit, State.setSeq, State.setTrace, payloadBytes, outBase]

/-! ### What a boundary leaves alone -/

/-- The buffers, the registers, OUTCOME and ALIVE_VALID. -/
def State.recordView (s : State) : Memory × Regs × OutcomeCode × Bool :=
  (s.mem, s.regs, s.status.outcome, s.status.aliveValid)

theorem State.recordView_inj {s t : State} (h : t.recordView = s.recordView) :
    t.mem = s.mem ∧ t.regs = s.regs ∧ t.status.outcome = s.status.outcome ∧ t.status.aliveValid = s.status.aliveValid := by
  simpa [State.recordView] using h

theorem startExchange_recordView (k : Kind) (bs : List Byte) (s : State) :
    (startExchange k bs s).recordView = s.recordView := by
  obtain ⟨-, h⟩ | ⟨-, h⟩ := startExchange_cases k bs s <;> rw [h] <;> rfl

theorem beginAttempt_recordView (s : State) : (beginAttempt s).recordView = s.recordView := by
  obtain ⟨-, h⟩ | ⟨-, h⟩ := beginAttempt_cases s <;> rw [h]
  · rfl
  · rw [startExchange_recordView]; rfl

theorem rawChunk_recordView (s : State) : (rawChunk s).recordView = s.recordView := by
  obtain ⟨-, h⟩ | ⟨-, h⟩ := rawChunk_cases s <;> rw [h] <;> rfl

/-- What an accepted command leaves of the record: the atomic ops write registers and OUT, the AT ops clear OUTCOME and
RESP_LEN and start with the buffers as they are. -/
inductive OpRecord (s t : State) : Prop where
  | atomic : t.status.outcome = s.status.outcome → t.status.aliveValid = s.status.aliveValid →
      t.regs.lastAlive = s.regs.lastAlive → OpRecord s t
  | started : t.mem = s.mem → (∃ p, t.regs = { s.regs with respLen := 0, rawProgress := p }) →
      t.status.outcome = .none → t.status.aliveValid = s.status.aliveValid → OpRecord s t

theorem opRecord_of_recordView {s u t : State} (h : t.recordView = u.recordView) (hmem : u.mem = s.mem)
    (hregs : ∃ p, u.regs = { s.regs with respLen := 0, rawProgress := p }) (houtcome : u.status.outcome = .none)
    (halive : u.status.aliveValid = s.status.aliveValid) : OpRecord s t := by
  obtain ⟨h1, h2, h3, h4⟩ := State.recordView_inj h
  exact .started (h1.trans hmem) (h2 ▸ hregs) (h3.trans houtcome) (h4.trans halive)

theorem OpResult.record {s t : State} (h : OpResult s t) : OpRecord s t := by
  cases h with
  | complete | results | encodingFails | frame => exact .atomic rfl rfl rfl
  | probe => exact opRecord_of_recordView (startExchange_recordView _ _ _) rfl ⟨_, rfl⟩ rfl rfl
  | readyProbe => exact opRecord_of_recordView (startExchange_recordView _ _ _) rfl ⟨_, rfl⟩ rfl rfl
  | attempt => exact opRecord_of_recordView (beginAttempt_recordView _) rfl ⟨_, rfl⟩ rfl rfl
  | raw => exact opRecord_of_recordView (rawChunk_recordView _) rfl ⟨_, rfl⟩ rfl rfl

/-! ### INVALID (42_at_sequencer R185) -/

theorem Booked.outcome_ne_invalid {e : Event} (he : e ≠ .chErr) {s t : State} (h : Booked e s t)
    (hs : s.status.outcome ≠ .invalid) : t.status.outcome ≠ .invalid := by
  cases h with
  | outcome o ho =>
    cases o with
    | invalid => exact absurd (ho rfl) he
    | _ => simp [setOutcome, RxOutcome.outcomeCode]
  | response => rw [responseUpdate_frame]; exact hs
  | consumed b => rw [(consume_frame b s).state]; exact hs
  | _ => exact hs

theorem UnitEvent.outcome_ne_invalid {e : Event} (he : e ≠ .chErr) {s t : State} (h : UnitEvent e s t)
    (hs : s.status.outcome ≠ .invalid) : t.status.outcome ≠ .invalid := by
  refine h.keeps (P := fun u => u.status.outcome ≠ .invalid) (M := fun u => u.status.outcome ≠ .invalid)
    (fun s t hst hs => ?_) (fun _ hs => hs) (fun hx => absurd hx he) (fun s u hc hs => ?_)
    (fun _ _ hb hu => hb.outcome_ne_invalid he hu) (fun v t hd hv => ?_) hs
  · cases hst with
    | consumes b => rw [(consume_frame b s).state]; exact hs
    | _ => exact hs
  · cases hc <;> exact hs
  · cases hd <;> exact hv

/-- Settles O45: the outcome of a receive's bytes or timeout is never INVALID, and an op starts with NONE. -/
theorem invalidOnlyFromChErr : Obligations.InvalidOnlyFromChErr := by
  intro s t h hs ht
  cases step_case h with
  | noEvent | ignored | asserted | rejected => exact absurd ht hs
  | released => cases ht
  | command _ _ _ _ _ hresult =>
    cases hresult.record with
    | atomic hsame => exact absurd (hsame.symm.trans ht) hs
    | started _ _ hnone => rw [hnone] at ht; cases ht
  | write _ _ _ _ _ hwritten =>
    cases hwritten with
    | ctrl => rw [writeCtrl_eq] at ht; exact absurd ht hs
    | _ => exact absurd ht hs
  | read _ _ _ hread => obtain rfl | rfl := hread <;> exact absurd ht hs
  | tick _ _ _ hevent => exact absurd ht (hevent.outcome_ne_invalid (by simp) hs)
  | event e rest hi hr _ hevent =>
    by_cases he : e = .chErr
    · exact ⟨hr, by rw [hi, he]; rfl⟩
    · exact absurd ht (hevent.outcome_ne_invalid he hs)

/-! ### The liveness time (42_at_sequencer R205) -/

/-- From `s` to `t` ALIVE_VALID is not lost, and liveness changes only to the NOW of `t`, by a probe exchange of `s`. -/
structure AliveFrom (s t : State) : Prop where
  kept : s.status.aliveValid = true → t.status.aliveValid = true
  probed : t.regs.lastAlive ≠ s.regs.lastAlive ∨ t.status.aliveValid ≠ s.status.aliveValid →
    t.regs.lastAlive = t.regs.now ∧ isProbe s.seq.kind = true

theorem AliveFrom.of_same {s t : State} (hvalid : t.status.aliveValid = s.status.aliveValid)
    (hlast : t.regs.lastAlive = s.regs.lastAlive) : AliveFrom s t :=
  ⟨hvalid.trans, fun h => absurd h (by simp [hvalid, hlast])⟩

/-- What `AliveFrom` looks at in the later state. -/
def State.aliveView (s : State) : Word × Word × Bool := (s.regs.now, s.regs.lastAlive, s.status.aliveValid)

theorem AliveFrom.same {s u t : State} (h : AliveFrom s u) (hsame : t.aliveView = u.aliveView) : AliveFrom s t := by
  simp only [State.aliveView, Prod.mk.injEq] at hsame
  obtain ⟨hnow, hlast, hvalid⟩ := hsame
  exact ⟨hvalid ▸ h.kept, by rw [hnow, hlast, hvalid]; exact h.probed⟩

theorem Booked.aliveFrom {e : Event} {s u v : State} (hb : Booked e u v) (hkind : u.seq.kind = s.seq.kind)
    (h : AliveFrom s u) : AliveFrom s v := by
  cases hb with
  | alive hprobe => exact ⟨fun _ => rfl, fun _ => ⟨rfl, hkind ▸ hprobe⟩⟩
  | response => rw [responseUpdate_frame]; exact h.same rfl
  | consumed b => rw [(consume_frame b u).state]; exact h.same rfl
  | _ => exact h.same rfl

theorem UnitEvent.aliveFrom {e : Event} {s t : State} (h : UnitEvent e s t) : AliveFrom s t := by
  refine h.leads (M := fun u => u.seq.kind = s.seq.kind ∧ AliveFrom s u) (fun t hst => ?_) (.of_same rfl rfl)
    (fun _ => .of_same rfl rfl) (fun u hc => ⟨(State.boundaryView_inj hc.boundaryView).1, ?_⟩)
    (fun u v hb hu => ⟨(State.boundaryView_inj hb.boundaryView).1.trans hu.1, hb.aliveFrom hu.1 hu.2⟩)
    fun v t hd hv => ?_
  · cases hst with
    | consumes b => rw [(consume_frame b s).state]; exact .of_same rfl rfl
    | _ => exact .of_same rfl rfl
  · cases hc <;> exact .of_same rfl rfl
  · cases hd <;> exact hv.2.same rfl

/-- Settles O53: within an event only a probe's bookkeeping writes the liveness time. -/
theorem livenessOnlyFromProbes : Obligations.LivenessOnlyFromProbes := by
  intro s t h hrelease
  have halive : AliveFrom s t := by
    cases step_case h with
    | noEvent | ignored | asserted | rejected => exact .of_same rfl rfl
    | released rest hi hr => exact absurd ⟨hr, by rw [hi]; rfl⟩ hrelease
    | command _ _ _ _ _ hresult =>
      cases hresult.record with
      | atomic _ hvalid hlast => exact .of_same hvalid hlast
      | started _ hregs _ hvalid =>
        obtain ⟨p, hregs⟩ := hregs
        exact .of_same hvalid (by rw [hregs]; rfl)
    | write _ _ _ _ _ hwritten =>
      cases hwritten with
      | ctrl => rw [writeCtrl_eq]; exact .of_same rfl rfl
      | _ => exact .of_same rfl rfl
    | read _ _ _ hread => obtain rfl | rfl := hread <;> exact .of_same rfl rfl
    | tick _ _ _ hevent => exact ⟨hevent.aliveFrom.kept, hevent.aliveFrom.probed⟩
    | event _ _ _ _ _ hevent => exact ⟨hevent.aliveFrom.kept, hevent.aliveFrom.probed⟩
  refine ⟨halive.kept, fun hchange => ?_⟩
  obtain ⟨hnow, hprobe⟩ := halive.probed hchange
  refine ⟨hnow, ?_⟩
  cases hk : s.seq.kind <;> simp [hk, isProbe] at hprobe ⊢

/-! ### The units (42_at_sequencer R223) -/

theorem accept_trace {k : State → State} (hk : ∀ s, (k s).trace = s.trace) (s : State) :
    (accept k s).trace = s.trace := by
  obtain ⟨-, h⟩ | ⟨-, h⟩ := accept_cases k s <;> rw [h]
  · rfl
  · rw [hk]; rfl

/-- NOP and the ops of the cw and fr units never emit. -/
theorem exec_atomic_trace {i : Instr} (hi : i ∈ ([.nop, .cwCrc, .cwParity, .cwEncode, .cwAddr, .cwCheck, .frText,
    .frFrame] : List Instr)) {s t : State} (h : exec i s = .next t) : t.trace = s.trace := by
  cases i with
  | nop | cwCrc | cwParity | cwEncode | cwAddr | cwCheck =>
    cases h
    refine accept_trace (fun _ => ?_) s
    rfl
  | frText | frFrame =>
    cases h
    refine accept_trace (fun u => ?_) s
    dsimp only
    split_ifs <;> rfl
  | _ => simp at hi

/-- The registers of the cw and fr units and of the text. -/
def Regs.otherUnits (x : Regs) : (Word × Word × Word × Word) × (Word × BitVec 3 × Word) × (Word × Word × Word × Word) :=
  ((x.arg0, x.arg1, x.res0, x.res1), (x.frAddr, x.frCfg, x.frRepeat), (x.txtLen, x.txtMax, x.outLen, x.frTextwords))

/-- The at unit leaves the other units' registers alone, and of the buffers writes only RESP. -/
structure StaysApart (s t : State) : Prop where
  mem : ∀ a, a < 0x1600 ∨ 0x1700 ≤ a → t.mem.read a = s.mem.read a
  regs : t.regs.otherUnits = s.regs.otherUnits

theorem StaysApart.of_mem {s t : State} (hmem : t.mem = s.mem) (hregs : t.regs.otherUnits = s.regs.otherUnits) :
    StaysApart s t :=
  ⟨fun _ _ => by rw [hmem], hregs⟩

theorem StaysApart.of_recordView {s u t : State} (h : t.recordView = u.recordView) (hmem : u.mem = s.mem)
    (hregs : u.regs.otherUnits = s.regs.otherUnits) : StaysApart s t := by
  obtain ⟨h1, h2, -, -⟩ := State.recordView_inj h
  exact .of_mem (h1.trans hmem) (h2 ▸ hregs)

theorem StaysApart.trans {s t u : State} (h : StaysApart s t) (k : StaysApart t u) : StaysApart s u :=
  ⟨fun a ha => (k.mem a ha).trans (h.mem a ha), k.regs.trans h.regs⟩

/-- A line and a payload that RESP has room for. -/
def FitsResp (p : Parser) : Prop := p.line.length ≤ 256 ∧ ∀ l ∈ p.payload, l.length ≤ 256

theorem fitsResp_consume (b : Byte) {s : State} (h : FitsResp s.parser) : FitsResp (consume b s).1.parser := by
  obtain ⟨hlen, hpay⟩ := h
  obtain ⟨hl, hp⟩ | ⟨hl, hp⟩ | ⟨hl, hp, -, hlt⟩ | ⟨hl, hp, -⟩ := consume_lineStep b s
  · exact ⟨hl ▸ hlen, hp ▸ hpay⟩
  · exact ⟨by simp [hl], hp ▸ hpay⟩
  · exact ⟨by rw [hl, List.length_append]; exact hlt, hp ▸ hpay⟩
  · exact ⟨by simp [hl], by simpa [hp] using hlen⟩

theorem responseUpdate_staysApart {s : State} (h : FitsResp s.parser) : StaysApart s (responseUpdate s) := by
  unfold responseUpdate
  split
  · next p hp =>
    have hlen : p.length ≤ 256 := h.2 p hp
    refine ⟨fun a ha => Memory.read_write_outside ?_, rfl⟩
    rw [respBase]
    omega
  · exact .of_mem rfl rfl

theorem Booked.staysApart {e : Event} {s t : State} (hb : Booked e s t) (h : FitsResp s.parser) :
    FitsResp t.parser ∧ StaysApart s t := by
  cases hb with
  | response => exact ⟨by rw [responseUpdate_frame]; exact h, responseUpdate_staysApart h⟩
  | opened => exact ⟨⟨Nat.zero_le _, nofun⟩, .of_mem rfl rfl⟩
  | consumed b =>
    refine ⟨fitsResp_consume b h, ?_⟩
    rw [(consume_frame b s).state]
    exact .of_mem rfl rfl
  | _ => exact ⟨h, .of_mem rfl rfl⟩

theorem UnitEvent.staysApart {e : Event} {s t : State} (h : UnitEvent e s t) (hs : FitsResp s.parser) :
    StaysApart s t := by
  refine h.leads (M := fun u => FitsResp u.parser ∧ StaysApart s u) (fun t hst => ?_) (.of_mem rfl rfl)
    (fun _ => .of_mem rfl rfl) (fun u hc => ?_) (fun u v hb hu => ?_) fun v t hd hv => hv.2.trans ?_
  · cases hst with
    | consumes b => rw [(consume_frame b s).state]; exact .of_mem rfl rfl
    | _ => exact .of_mem rfl rfl
  · cases hc <;> exact ⟨hs, .of_mem rfl rfl⟩
  · obtain ⟨hfits, hapart⟩ := hb.staysApart hu.1
    exact ⟨hfits, hu.2.trans hapart⟩
  · cases hd <;> exact .of_mem rfl rfl

/-- The three AT ops start without touching a buffer. -/
theorem execAt_staysApart {i : Instr} (hi : i = .atProbe ∨ (∃ fl, i = .atExec fl) ∨ i = .atRaw) {s t : State}
    (h : exec i s = .next t) : StaysApart s t := by
  have haccept {k : State → State} (hk : ∀ u, StaysApart u (k u)) : StaysApart s (accept k s) := by
    obtain ⟨-, h⟩ | ⟨-, h⟩ := accept_cases k s <;> rw [h]
    · exact .of_mem rfl rfl
    · have hclear : StaysApart s (s.setStatus { s.status with done := false }) := .of_mem rfl rfl
      exact hclear.trans (hk _)
  obtain rfl | ⟨fl, rfl⟩ | rfl := hi <;> cases h <;> refine haccept fun u => ?_
  · exact .of_recordView (startExchange_recordView _ _ _) rfl rfl
  · dsimp only
    split_ifs
    · exact .of_mem rfl rfl
    · exact .of_recordView (startExchange_recordView _ _ _) rfl rfl
    · exact .of_recordView (beginAttempt_recordView _) rfl rfl
  · split_ifs
    · exact .of_mem rfl rfl
    · exact .of_recordView (rawChunk_recordView _) rfl rfl

/-- Settles O55: the atomic ops only complete; an event of the at unit books into RESP and its own registers. -/
theorem unitsStayApart : Obligations.UnitsStayApart := by
  refine ⟨fun s t i hi h => exec_atomic_trace hi h, fun s t hr hpay hline hevent => ?_⟩
  have happly (e : Event) : applyEvent e s = runEvent e s := by simp [applyEvent, hr]
  have hunit (e : Event) (he : e = .tick ∨ e = .chErr ∨ e = .drainDone ∨ ∃ b, e = .rx b)
      (h : applyEvent e s = .next t) : StaysApart s t := by
    have hfits : FitsResp (if e = .tick then advanceNow s else s).parser := by
      split_ifs <;> exact ⟨hline, hpay⟩
    have hstart : StaysApart s (if e = .tick then advanceNow s else s) := by
      split_ifs <;> exact .of_mem rfl rfl
    exact hstart.trans ((unitEvent_of_runEvent (happly e ▸ h) he).staysApart hfits)
  have hapart : StaysApart s t := by
    obtain ⟨e, he, h⟩ | ⟨b, h⟩ | h | ⟨fl, h⟩ | h := hevent
    · simp only [List.mem_cons, List.not_mem_nil, or_false] at he
      exact hunit e (he.imp_right (.imp_right .inl)) h
    · exact hunit _ (.inr (.inr (.inr ⟨b, rfl⟩))) h
    · exact execAt_staysApart (.inl rfl) h
    · exact execAt_staysApart (.inr (.inl ⟨fl, rfl⟩)) h
    · exact execAt_staysApart (.inr (.inr rfl)) h
  refine ⟨fun a _ ha => hapart.mem a (.inl (by omega)), fun a ha _ => hapart.mem a (.inr (by omega)), ?_⟩
  have hregs := hapart.regs
  simp only [Regs.otherUnits, Prod.mk.injEq] at hregs
  obtain ⟨⟨h1, h2, h3, h4⟩, ⟨h5, h6, h7⟩, ⟨h8, h9, h10, h11⟩⟩ := hregs
  rw [← h1, ← h2, ← h3, ← h4, ← h5, ← h6, ← h7, ← h8, ← h9, ← h10, ← h11]

end Sys2Proof.Machine
end

section
/-! SUPPORT. How the AT ops start in an idle state (42_at_sequencer R195, R196, R209). -/

namespace Sys2Proof.Machine

/-- Settles O28: without a cancellation pending an accepted AT_PROBE sends its exchange. -/
theorem atProbeStarts : Obligations.AtProbeStarts := by
  intro s hidle
  obtain ⟨hbusy, hcancel, -⟩ := idle_control hidle
  refine ⟨?_, otherWordsRefused (i := .atProbe) hidle (by decide)⟩
  rw [exec, execAtProbe, accept_idle hbusy]
  exact congrArg Host.Outcome.next
    (startExchange_sends (s := probeLatched (s.setStatus { s.status with done := false })) hcancel _ _)

/-! ### AT_EXEC -/

theorem encode_atExec_mem : ∀ fl : BitVec 4, WellFormed (.atExec fl) = true →
    encode (.atExec fl) ∈ ([0x00000021, 0x00000121, 0x00000221, 0x00000321] : List Word) := by
  decide

/-- AT_EXEC's opcode has no other words than those with its free FLAGS bits (30_encoding R83, R94). -/
theorem atExec_otherWordsRefused {s : State} (hidle : Idle s) :
    OtherWordsRefused 0x21 [0x00000021, 0x00000121, 0x00000221, 0x00000321] s := by
  intro v hopc hv
  refine command_refused hidle ?_
  rintro ⟨i, hi⟩
  obtain ⟨-, hiopc, -, hwf⟩ := decode_eq_ok.1 hi
  obtain ⟨-, rfl⟩ := (decodeAndEncodeAgree v i).1 hi
  rw [hopc] at hiopc
  cases i with
  | atExec fl => exact hv (encode_atExec_mem fl hwf)
  | _ => cases hiopc

/-- Liveness is stale, or was never shown (42_at_sequencer R196). -/
theorem probeNeeded_iff {s : State} : probeNeeded s = true ↔
    s.status.aliveValid = false ∨ (s.regs.now - s.regs.lastAlive).toNat > s.cfg.freshMs.toNat := by
  simp [probeNeeded, BitVec.lt_def]

theorem exec_atExec_refused {s : State} (hidle : Idle s) {flags : BitVec 4} (hbad : execArgsBad flags s = true) :
    exec (.atExec flags) s = .next (completed .badCommand s) := by
  have hbad' : execArgsBad flags (s.setStatus { s.status with done := false }) = true := hbad
  rw [exec, execAtExec, accept_idle hidle.2, if_pos hbad', finish_idle (idle_accepted hidle)]
  rfl

theorem exec_atExec_starts {s : State} (hidle : Idle s) {flags : BitVec 4} (hgood : execArgsBad flags s = false) :
    exec (.atExec flags) s = .next (
      if flags.getLsbD 0 = false ∧ probeNeeded s = true then
        exchangeStarted .readyProbe s.cfg.probeCmd (execLatched flags (s.setStatus { s.status with done := false }))
      else attemptStarted (execLatched flags (s.setStatus { s.status with done := false }))) := by
  obtain ⟨hbusy, hcancel, -⟩ := idle_control hidle
  have hgood' : ¬execArgsBad flags (s.setStatus { s.status with done := false }) = true := by
    rw [show execArgsBad flags (s.setStatus { s.status with done := false }) = execArgsBad flags s from rfl, hgood]
    decide
  have hprobe : ((!flags.getLsbD 0 && probeNeeded s) = true) = (flags.getLsbD 0 = false ∧ probeNeeded s = true) := by
    simp
  rw [exec, execAtExec, accept_idle hbusy, if_neg hgood']
  simp only [← hprobe]
  rw [← beginAttempt_sends (s := execLatched flags (s.setStatus { s.status with done := false })) hcancel,
    ← startExchange_sends (s := execLatched flags (s.setStatus { s.status with done := false })) hcancel]
  rfl

/-- Settles O29: the argument checks, then the readiness test, decide between a refusal, a probe and an attempt. -/
theorem atExecStarts : Obligations.AtExecStarts := by
  intro s flags hidle _
  refine ⟨fun hbad => exec_atExec_refused hidle ?_, fun hlen hcap hretries hmark q hq => ?_,
    atExec_otherWordsRefused hidle⟩
  · by_contra hgood
    obtain ⟨hlen, hcap, hretries, hmark⟩ := execArgsBad_eq_false.1 (Bool.eq_false_iff.2 hgood)
    rw [cmdCap] at hcap
    obtain h | h | h | ⟨h, hover⟩ := hbad
    · exact hlen h
    · omega
    · exact hretries h
    · have hmax := hmark h
      rw [markCap] at hmax
      omega
  · have hstart := exec_atExec_starts hidle (execArgsBad_eq_false.2 ⟨hlen, hcap, hretries, hmark⟩)
    subst hq
    refine ⟨fun hprobe => ?_, fun hfresh => ?_⟩
    · rw [hstart, if_pos ⟨hprobe.1, probeNeeded_iff.2 hprobe.2⟩]
      rfl
    · rw [hstart, if_neg]
      · rfl
      · rintro ⟨hflag, hneeded⟩
        obtain h | ⟨halive, hage⟩ := hfresh
        · rw [hflag] at h
          cases h
        · obtain h | h := probeNeeded_iff.1 hneeded
          · simp [halive] at h
          · omega

/-! ### AT_RAW -/

theorem Memory.take_readBytes (m : Memory) (a n k : Nat) : (m.readBytes a n).take k = m.readBytes a (min k n) := by
  simp [Memory.readBytes, ← List.map_take, List.take_range]

/-- The first chunk is the first bytes of OUT's words (42_at_sequencer R210; 20_memory R65). -/
theorem firstChunk {s : State} (hcap : s.regs.outLen.toNat ≤ 512) :
    (wordsToBytes (outWords s s.regs.outLen.toNat)).take s.cfg.chunk =
      payloadBytes s 0 (min s.cfg.chunk (4 * s.regs.outLen).toNat) := by
  have hbytes : (4 * s.regs.outLen).toNat = 4 * s.regs.outLen.toNat := by bv_omega
  rw [← payloadBytes_eq_wordsToBytes, hbytes]
  exact Memory.take_readBytes _ _ _ _

/-- Settles O30: an accepted AT_RAW with something in OUT sends its first chunk. -/
theorem atRawStarts : Obligations.AtRawStarts := by
  intro s hidle
  obtain ⟨hbusy, hcancel, -⟩ := idle_control hidle
  refine ⟨fun hempty => ?_, fun hempty hcap bytes hbytes => ?_, otherWordsRefused (i := .atRaw) hidle (by decide)⟩
  · have hempty' : (s.setStatus { s.status with done := false }).regs.outLen = 0 := hempty
    rw [exec, execAtRaw, accept_idle hbusy, if_pos hempty', finish_idle (idle_accepted hidle)]
    rfl
  · have hempty' : ¬(s.setStatus { s.status with done := false }).regs.outLen = 0 := hempty
    have hlen : bytes.length = min s.cfg.chunk (4 * s.regs.outLen).toNat := by
      rw [hbytes, firstChunk hcap, payloadBytes, Memory.length_readBytes]
    rw [exec, execAtRaw, accept_idle hbusy, if_neg hempty',
      show latchRaw (startOp .raw (s.setStatus { s.status with done := false })) =
        rawLatched (s.setStatus { s.status with done := false }) from rfl,
      rawChunk_sends (s := rawLatched (s.setStatus { s.status with done := false })) hcancel, hlen, hbytes, firstChunk hcap]
    have hsize : chunkSize (rawLatched (s.setStatus { s.status with done := false })) =
        min s.cfg.chunk (4 * s.regs.outLen).toNat := by
      rw [chunkSize]
      simp [rawLatched, latchRaw]
    rw [chunkSent, hsize, List.append_assoc]
    rfl

end Sys2Proof.Machine
end

section
/-! SUPPORT. The ends of exchanges and receives: an equation per kind and outcome of `end_exchange`, and what each of
them leaves unchanged (42_at_sequencer R194 to R206, R214). -/

namespace Sys2Proof.Machine

/-! ### The bookkeeping of a CMD exchange (42_at_sequencer R194, R204, R206) -/

/-- The state after the outcome and the response of a CMD exchange, or of AT_RAW's receive, are noted. -/
def commandEnded (o : RxOutcome) (s : State) : State := responseUpdate (setOutcome o s)

section
variable {s : State} {o : RxOutcome}

theorem commandEnded_frame (o : RxOutcome) (s : State) : commandEnded o s = { s with
    mem := (commandEnded o s).mem
    regs := { s.regs with respLen := (commandEnded o s).regs.respLen }
    status := { s.status with outcome := o.outcomeCode, dataValid := (commandEnded o s).status.dataValid } } :=
  responseUpdate_frame (setOutcome o s)

@[simp] theorem commandEnded_cfg : (commandEnded o s).cfg = s.cfg := by rw [commandEnded_frame]
@[simp] theorem commandEnded_seq : (commandEnded o s).seq = s.seq := by rw [commandEnded_frame]
@[simp] theorem commandEnded_parser : (commandEnded o s).parser = s.parser := by rw [commandEnded_frame]
@[simp] theorem commandEnded_rxq : (commandEnded o s).rxq = s.rxq := by rw [commandEnded_frame]
@[simp] theorem commandEnded_trace : (commandEnded o s).trace = s.trace := by rw [commandEnded_frame]
@[simp] theorem commandEnded_inbox : (commandEnded o s).inbox = s.inbox := by rw [commandEnded_frame]
@[simp] theorem commandEnded_inReset : (commandEnded o s).inReset = s.inReset := by rw [commandEnded_frame]

theorem commandEnded_status : (commandEnded o s).status =
    { s.status with outcome := o.outcomeCode, dataValid := (commandEnded o s).status.dataValid } :=
  congrArg State.status (commandEnded_frame o s)

theorem commandEnded_regs : (commandEnded o s).regs =
    { s.regs with respLen := (commandEnded o s).regs.respLen } :=
  congrArg State.regs (commandEnded_frame o s)

@[simp] theorem commandEnded_outcome : (commandEnded o s).status.outcome = o.outcomeCode := by rw [commandEnded_status]
@[simp] theorem commandEnded_attempts : (commandEnded o s).status.attempts = s.status.attempts := by
  rw [commandEnded_status]
@[simp] theorem commandEnded_cancelPend : (commandEnded o s).status.cancelPend = s.status.cancelPend := by
  rw [commandEnded_status]
@[simp] theorem commandEnded_busy : (commandEnded o s).status.busy = s.status.busy := by rw [commandEnded_status]
@[simp] theorem commandEnded_done : (commandEnded o s).status.done = s.status.done := by rw [commandEnded_status]
@[simp] theorem commandEnded_now : (commandEnded o s).regs.now = s.regs.now := by rw [commandEnded_regs]
@[simp] theorem commandEnded_atCmdlen : (commandEnded o s).regs.atCmdlen = s.regs.atCmdlen := by rw [commandEnded_regs]
@[simp] theorem commandEnded_atMarklen : (commandEnded o s).regs.atMarklen = s.regs.atMarklen := by
  rw [commandEnded_regs]

@[simp] theorem attemptsRemain_commandEnded :
    attemptsRemain (commandEnded o s) = decide (s.status.attempts < s.seq.maxAtt) := by
  simp [attemptsRemain]

theorem commandEnded_of_payload {p : List Byte} (h : s.parser.payload = some p) :
    (commandEnded o s).mem = s.mem.write respBase p ∧
    (commandEnded o s).regs = { s.regs with respLen := BitVec.ofNat 32 p.length } ∧
    (commandEnded o s).status.dataValid = true := by
  have hset : (setOutcome o s).parser.payload = some p := h
  rw [commandEnded, responseUpdate, hset]
  exact ⟨rfl, rfl, rfl⟩

theorem commandEnded_without_payload (h : s.parser.payload = none) :
    (commandEnded o s).mem = s.mem ∧ (commandEnded o s).regs = { s.regs with respLen := 0 } ∧
    (commandEnded o s).status.dataValid = false := by
  have hset : (setOutcome o s).parser.payload = none := h
  rw [commandEnded, responseUpdate, hset]
  exact ⟨rfl, rfl, rfl⟩

/-- CMDBUF and MARKER lie below RESP (20_memory R64). -/
theorem commandEnded_readBytes {a n : Nat} (h : a + n ≤ respBase) :
    (commandEnded o s).mem.readBytes a n = s.mem.readBytes a n := by
  cases hp : s.parser.payload with
  | none => rw [(commandEnded_without_payload hp).1]
  | some p => rw [(commandEnded_of_payload hp).1, Memory.readBytes_write_outside (.inl h)]

/-! ### The end of an exchange, by kind and outcome (42_at_sequencer R194) -/

theorem endExchange_soloProbe (hk : s.seq.kind = .soloProbe) :
    endExchange o s = finish (probeResult o) (aliveIfOk o (setOutcome o s)) := by
  simp only [endExchange, hk]

theorem endExchange_readyProbe_failed (hk : s.seq.kind = .readyProbe) (ho : o ≠ .ok) :
    endExchange o s = finish (probeResult o) (aliveIfOk o (setOutcome o s)) := by
  simp only [endExchange, hk, if_neg ho]

theorem endExchange_readyProbe_ok (hk : s.seq.kind = .readyProbe) :
    endExchange .ok s = beginAttempt (aliveIfOk .ok (setOutcome .ok s)) := by
  simp only [endExchange, hk, if_true]

theorem endExchange_retryProbe (hk : s.seq.kind = .retryProbe) :
    endExchange o s = beginAttempt (aliveIfOk o s) := by
  simp only [endExchange, hk]

theorem endExchange_cmd (hk : s.seq.kind = .cmd) : endExchange o s = afterCommand o (commandEnded o s) := by
  simp only [endExchange, hk, commandEnded]

theorem endExchange_success (hk : s.seq.kind = .cmd) (ho : o = .ok ∨ o = .data) :
    endExchange o s = commandSuccess (commandEnded o s) := by
  rw [endExchange_cmd hk]
  obtain rfl | rfl := ho <;> rfl

theorem endExchange_timeout (hk : s.seq.kind = .cmd) : endExchange .timeout s =
    if s.status.attempts < s.seq.maxAtt then startExchange .retryProbe s.cfg.probeCmd (commandEnded .timeout s)
    else finish .timeoutError (commandEnded .timeout s) := by
  rw [endExchange_cmd hk]
  simp only [afterCommand, attemptsRemain_commandEnded, decide_eq_true_eq, commandEnded_cfg]

/-- The two outcomes that back off, with their backoff and the result of the last attempt (42_at_sequencer R200, R202). -/
def BacksOff (p : Params) (o : RxOutcome) (d : Word) (c : Result) : Prop :=
  (o = .error ∧ d = p.errBackoffMs ∧ c = .protocolError) ∨ (o = .invalid ∧ d = p.invBackoffMs ∧ c = .channelError)

theorem endExchange_failure {d : Word} {c : Result} (hk : s.seq.kind = .cmd) (ho : BacksOff s.cfg o d c) :
    endExchange o s =
      if s.status.attempts < s.seq.maxAtt then waitIn d .backoff beginAttempt (commandEnded o s)
      else finish c (commandEnded o s) := by
  rw [endExchange_cmd hk]
  obtain ⟨rfl, rfl, rfl⟩ | ⟨rfl, rfl, rfl⟩ := ho <;>
    simp only [afterCommand, attemptsRemain_commandEnded, decide_eq_true_eq, commandEnded_cfg]

/-! ### Success and its marker check (42_at_sequencer R199) -/

theorem commandSuccess_ok
    (h : s.seq.mark = false ∨ ∃ p, s.parser.payload = some p ∧ markerBytes s <:+: p) :
    commandSuccess s = finish .ok s := by
  obtain hmark | ⟨p, hp, hfound⟩ := h
  · exact if_pos hmark
  · have hcontains : contains p (markerBytes s) = true := (contains_iff_infix _ _).2 hfound
    simp only [commandSuccess, hp, hcontains, if_true, ite_self]

theorem commandSuccess_deviceNotReady (hmark : s.seq.mark = true)
    (h : ∀ p, s.parser.payload = some p → ¬ markerBytes s <:+: p) :
    commandSuccess s = finish .deviceNotReady s := by
  rw [commandSuccess, if_neg (by simp [hmark])]
  split
  · next p hp => exact if_neg (mt (contains_iff_infix _ _).1 (h p hp))
  · rfl

end

/-- Settles O35, by the two equations of a successful command over the exchange's bookkeeping. -/
theorem commandSuccessChecksMarker : Obligations.CommandSuccessChecksMarker := by
  intro s o k hk ho hlen
  have hsuccess : o = .ok ∨ o = .data := ho.imp And.left And.left
  have hcode : o.outcomeCode = k := by obtain ⟨rfl, rfl⟩ | ⟨rfl, rfl⟩ := ho <;> rfl
  have hmarker (hm : s.seq.mark = true) :
      markerBytes (commandEnded o s) = s.mem.readBytes 0x1500 s.regs.atMarklen.toNat := by
    rw [markerBytes, commandEnded_atMarklen]
    exact commandEnded_readBytes (by have := hlen hm; simp only [markerBase, respBase]; omega)
  rw [endExchange_success hk hsuccess]
  dsimp only
  have hfinish : ∃ c, commandSuccess (commandEnded o s) = finish c (commandEnded o s) :=
    (commandSuccess_cases _).elim (⟨_, ·⟩) (⟨_, ·⟩)
  obtain ⟨hdone, hbusy, hpend, hst, hrest⟩ :
      (commandSuccess (commandEnded o s)).status.done = true ∧
      (commandSuccess (commandEnded o s)).status.busy = false ∧
      (commandSuccess (commandEnded o s)).status.cancelPend = false ∧
      (commandSuccess (commandEnded o s)).seq.st = .idle ∧
      (commandSuccess (commandEnded o s)).status.outcome = k ∧
      (commandSuccess (commandEnded o s)).status.attempts = s.status.attempts ∧
      (commandSuccess (commandEnded o s)).trace = s.trace ∧ (commandSuccess (commandEnded o s)).rxq = s.rxq := by
    obtain ⟨c, hc⟩ := hfinish
    simp [hc, hcode]
  obtain ⟨houtcome, hattempts, htrace, hrxq⟩ := hrest
  refine ⟨hdone, hbusy, hpend, hst, houtcome, hattempts, htrace, hrxq, fun h => ?_, fun hm hmissing => ?_⟩
  · rw [commandSuccess_ok (s := commandEnded o s), finish_status]
    cases hm : s.seq.mark with
    | false => exact .inl (by rw [commandEnded_seq, hm])
    | true =>
      obtain ⟨p, hp, hfound⟩ := h.resolve_left (by simp [hm])
      exact .inr ⟨p, by rw [commandEnded_parser, hp], by rwa [hmarker hm]⟩
  · rw [commandSuccess_deviceNotReady (s := commandEnded o s) (by rw [commandEnded_seq, hm]), finish_status]
    intro p hp
    rw [hmarker hm]
    exact hmissing p (by rwa [commandEnded_parser] at hp)

/-! ### Failures (42_at_sequencer R200 to R202) -/

/-- The command's bytes survive the response update, for AT_CMDLEN within CMDBUF. -/
theorem commandBytes_commandEnded {s : State} {o : RxOutcome} (h : s.regs.atCmdlen.toNat ≤ 256) :
    commandBytes (commandEnded o s) = s.mem.readBytes 0x1400 s.regs.atCmdlen.toNat := by
  rw [commandBytes, commandEnded_atCmdlen]
  exact commandEnded_readBytes (by simp only [cmdbufBase, respBase]; omega)

/-- Settles O36, by the four branches of a failed command: backoff, next attempt, cancellation, last attempt. -/
theorem commandFailureBacksOff : Obligations.CommandFailureBacksOff := by
  intro s hk o k d c ho
  obtain ⟨hback, hcode⟩ : BacksOff s.cfg o d c ∧ o.outcomeCode = k := by
    obtain ⟨rfl, rfl, hd, hc⟩ | ⟨rfl, rfl, hd, hc⟩ := ho
    · exact ⟨.inl ⟨rfl, hd, hc⟩, rfl⟩
    · exact ⟨.inr ⟨rfl, hd, hc⟩, rfl⟩
  rw [endExchange_failure hk hback]
  dsimp only
  by_cases hlt : s.status.attempts < s.seq.maxAtt
  · rw [if_pos hlt]
    obtain ⟨hd, hwait⟩ | ⟨hd, hwait⟩ := waitIn_cases d .backoff beginAttempt (commandEnded o s) <;> rw [hwait]
    · cases hcancel : s.status.cancelPend
      · rw [beginAttempt_sends (s := commandEnded o s) (by rw [commandEnded_cancelPend, hcancel])]
        simp +contextual [attemptStarted, exchangeStarted, exchanging, hk, hd, hlt, hcode, commandBytes_commandEnded]
      · rw [beginAttempt_cancelled (s := commandEnded o s) (by rw [commandEnded_cancelPend, hcancel])]
        simp [hd, hlt, hcode]
    · simp [show d ≠ 0#32 from hd, hlt, hcode]
  · simp [hlt, hcode]

/-- The alive update, written for every outcome of a probe (42_at_sequencer R205). -/
theorem aliveIfOk_eq (o : RxOutcome) (s : State) : aliveIfOk o s = { s with
    regs := { s.regs with lastAlive := if o = .ok then s.regs.now else s.regs.lastAlive }
    status := { s.status with aliveValid := s.status.aliveValid || decide (o = .ok) } } := by
  by_cases ho : o = .ok <;> simp [aliveIfOk, aliveUpdate, ho, State.setRegs, State.setStatus]

/-- Settles O37, by the branches of a timed-out command and the attempt that follows a retry probe. -/
theorem commandTimeoutProbes : Obligations.CommandTimeoutProbes := by
  intro s
  refine ⟨fun hk => ?_, fun hk hcancel o => ?_, fun hk hcancel o => ?_⟩
  · rw [endExchange_timeout hk]
    by_cases hlt : s.status.attempts < s.seq.maxAtt
    · rw [if_pos hlt]
      cases hcancel : s.status.cancelPend
      · rw [startExchange_sends (s := commandEnded .timeout s) (by rw [commandEnded_cancelPend, hcancel])]
        simp [exchangeStarted, exchanging, hlt, RxOutcome.outcomeCode]
      · rw [startExchange_cancelled (s := commandEnded .timeout s) (by rw [commandEnded_cancelPend, hcancel])]
        simp [hlt, RxOutcome.outcomeCode]
    · simp [hlt, RxOutcome.outcomeCode]
  · rw [endExchange_retryProbe hk, aliveIfOk_eq, beginAttempt_sends (by exact hcancel)]
    rfl
  · rw [endExchange_retryProbe hk, aliveIfOk_eq, beginAttempt_cancelled (by exact hcancel)]
    exact ⟨rfl, rfl, rfl, rfl, rfl, rfl⟩

/-- Settles O38, by the equation of each probe kind's end. -/
theorem probeOutcomeDecides : Obligations.ProbeOutcomeDecides := by
  intro s o k c htable
  obtain ⟨rfl, rfl⟩ : k = o.outcomeCode ∧ c = probeResult o := by
    simp only [List.mem_cons, Prod.mk.injEq, List.not_mem_nil, or_false] at htable
    obtain ⟨rfl, rfl, rfl⟩ | ⟨rfl, rfl, rfl⟩ | ⟨rfl, rfl, rfl⟩ | ⟨rfl, rfl, rfl⟩ | ⟨rfl, rfl, rfl⟩ := htable <;>
      exact ⟨rfl, rfl⟩
  refine ⟨fun hk => ?_, fun hk ho hcancel => ?_, fun hk ho hcancel => ?_⟩
  · have hend : endExchange o s = finish (probeResult o) (aliveIfOk o (setOutcome o s)) :=
      hk.elim endExchange_soloProbe fun h => endExchange_readyProbe_failed h.1 h.2
    rw [hend, aliveIfOk_eq]
    exact ⟨rfl, rfl, rfl, rfl, rfl, rfl⟩
  · subst ho
    rw [endExchange_readyProbe_ok hk, beginAttempt_sends (by exact hcancel)]
    exact ⟨rfl, rfl, rfl, rfl, rfl, rfl, rfl⟩
  · subst ho
    rw [endExchange_readyProbe_ok hk, beginAttempt_cancelled (by exact hcancel)]
    exact ⟨rfl, rfl, rfl, rfl, rfl, rfl⟩

/-! ### RESP after a receive (42_at_sequencer R206, R214) -/

theorem endRaw_eq (o : RxOutcome) (s : State) : endRaw o s = finish (rawResult o) (commandEnded o s) := rfl

/-- No decision touches the response, the other registers or memory. -/
theorem Decided.keeps_response {s t : State} (h : Decided s t) :
    t.mem = s.mem ∧ t.regs = s.regs ∧ t.status.dataValid = s.status.dataValid := by
  cases h <;> exact ⟨rfl, rfl, rfl⟩

theorem keeps_response_of_end {s t : State} {o : RxOutcome}
    (h : (s.seq.kind = .cmd ∧ t = endExchange o s) ∨ t = endRaw o s) :
    t.mem = (commandEnded o s).mem ∧ t.regs = (commandEnded o s).regs ∧
      t.status.dataValid = (commandEnded o s).status.dataValid := by
  obtain ⟨hk, rfl⟩ | rfl := h
  · rw [endExchange_cmd hk]
    exact (afterCommand_decided o (by rwa [commandEnded_seq])).keeps_response
  · exact (Decided.finish (s := commandEnded o s) (rawResult o)).keeps_response

/-- Settles O33: the response update puts the payload into RESP, and no decision changes it any more. -/
theorem receiveEndFillsResp : Obligations.ReceiveEndFillsResp := by
  intro s t o hend
  obtain ⟨hmem, hregs, hvalid⟩ := keeps_response_of_end hend
  refine ⟨fun p hp _ => ?_, fun hp => ?_, fun hraw k c htable => ?_⟩
  · obtain ⟨hmem', hregs', hvalid'⟩ := commandEnded_of_payload (o := o) hp
    refine ⟨hvalid.trans hvalid', hregs.trans hregs', ?_, fun a ha => ?_⟩ <;> rw [hmem, hmem']
    · exact Memory.readBytes_write _ _ _
    · exact Memory.read_write_outside ha
  · obtain ⟨hmem', hregs', hvalid'⟩ := commandEnded_without_payload (o := o) hp
    exact ⟨hvalid.trans hvalid', hregs.trans hregs', fun a => by rw [hmem, hmem']⟩
  · obtain ⟨rfl, rfl⟩ : k = o.outcomeCode ∧ c = rawResult o := by
      simp only [List.mem_cons, Prod.mk.injEq, List.not_mem_nil, or_false] at htable
      obtain ⟨rfl, rfl, rfl⟩ | ⟨rfl, rfl, rfl⟩ | ⟨rfl, rfl, rfl⟩ | ⟨rfl, rfl, rfl⟩ | ⟨rfl, rfl, rfl⟩ := htable <;>
        exact ⟨rfl, rfl⟩
    rw [hvalid, hraw, endRaw_eq, finish_status, commandEnded_status]
    simp

end Sys2Proof.Machine
end

section
/-! SUPPORT. One event of the at unit by `st`, the classes of received bytes, and how a receive begins (42_at_sequencer
R173 to R182). -/

namespace Sys2Proof.Machine

/-! ### Consuming a byte, by its class (42_at_sequencer R179, R181) -/

/-- The saturating count, with its bound written out (10_state R37). -/
theorem satInc_eq (x : Word) : satInc x = if x = 0xFFFFFFFF then 0xFFFFFFFF else x + 1 := by
  unfold satInc
  split <;> simp_all

section
variable {s : State} {b : Byte}

theorem consume_cr : consume 0x0D s = (restartCountdown s, none) := rfl

theorem consume_lf_empty (h : s.parser.line = []) : consume 0x0A s = (restartCountdown s, none) := by
  simp [consume, consumeByte, restartCountdown, h]

theorem consume_lf (h : s.parser.line ≠ []) : consume 0x0A s =
    classify s.parser.line ((restartCountdown s).setParser { (restartCountdown s).parser with line := [] }) := by
  simp [consume, consumeByte, restartCountdown, h]

/-- A printable byte is neither CR nor LF. -/
theorem consume_printable (h : 0x20 ≤ b ∧ b ≤ 0x7E) : consume b s =
    if s.parser.line.length < lineMax then
      ((restartCountdown s).setParser { (restartCountdown s).parser with line := s.parser.line ++ [b] }, none)
    else ((restartCountdown s).setLineOvf, none) := by
  have hcr : b ≠ 0x0D := by rintro rfl; exact absurd h.1 (by decide)
  have hlf : b ≠ 0x0A := by rintro rfl; exact absurd h.1 (by decide)
  rw [consume, consumeByte, if_neg hcr, if_neg hlf, if_pos h]
  rfl

theorem consume_noise (hcr : b ≠ 0x0D) (hlf : b ≠ 0x0A) (h : ¬(0x20 ≤ b ∧ b ≤ 0x7E)) : consume b s =
    (countNoise ((restartCountdown s).setParser { (restartCountdown s).parser with line := [] }), none) := by
  rw [consume, consumeByte, if_neg hcr, if_neg hlf, if_neg h]

/-- The informational lines, as the statements say it (42_at_sequencer R181). -/
theorem informational_iff (l : List Byte) :
    (contains l debugTag || contains l atReadyTag) = true ↔ debugTag <:+: l ∨ atReadyTag <:+: l := by
  rw [Bool.or_eq_true, contains_iff_infix, contains_iff_infix]

theorem classify_eq (l : List Byte) (s : State) : classify l s =
    if l = okLine then (s, some .ok)
    else if l = errorLine then (s, some .error)
    else if debugTag <:+: l ∨ atReadyTag <:+: l then (countInfo s, none)
    else if l.head? = some 0x2B ∧ s.parser.payload = none then
      (s.setParser { s.parser with payload := some l }, none)
    else (countIgn s, none) := by
  by_cases hplus : l.head? = some 0x2B <;> by_cases hpay : s.parser.payload = none <;>
    simp only [classify, informational_iff, hplus, hpay, if_true, if_false, and_true, and_false, and_self]

end

/-- Settles O32, by the equation of each class of bytes. -/
theorem consumeClassifiesLines : Obligations.ConsumeClassifiesLines := by
  intro s b
  refine ⟨?_, ?_, ?_, fun hb hlen => ?_, fun hb hlen => ?_, fun hcr hlf hb => ?_⟩
  · rintro rfl
    exact consume_cr
  · rintro rfl hline
    exact consume_lf_empty hline
  · rintro rfl hline
    rw [consume_lf hline, classify_eq, countInfo, countIgn, satInc_eq, satInc_eq]
    rfl
  · rw [consume_printable hb, if_pos (by exact hlen)]
    rfl
  · rw [consume_printable hb, if_neg (by simpa [lineMax] using hlen)]
    rfl
  · rw [consume_noise hcr hlf hb, countNoise, satInc_eq]
    rfl

/-! ### The end of a receive, by its state (42_at_sequencer R182) -/

section
variable {s t : State} {rest : List Event}

theorem endRecv_eq (o : RxOutcome) (h : t.seq = s.seq) :
    endRecv o t = if s.seq.st = .rawRecv then endRaw o t else endExchange o t := by
  rw [endRecv, h]

/-! ### A step, by its event (42_at_sequencer R172) -/

theorem step_tick (hr : s.inReset = false) (hi : s.inbox = .tick :: rest) :
    step s = .next (onTick (s.setInbox rest)) := step_event hr hi

theorem step_rx {b : Byte} (hr : s.inReset = false) (hi : s.inbox = .rx b :: rest) :
    step s = .next (onRx b (s.setInbox rest)) := step_event hr hi

theorem step_drainDone (hr : s.inReset = false) (hi : s.inbox = .drainDone :: rest) :
    step s = .next (onDrainDone (s.setInbox rest)) := step_event hr hi

theorem step_chErr (hr : s.inReset = false) (hi : s.inbox = .chErr :: rest) :
    step s = .next (onChErr (s.setInbox rest)) := step_event hr hi

/-! ### Events, by `st` -/

theorem isRecv_iff {x : SeqState} : isRecv x = true ↔ x = .xRecv ∨ x = .rawRecv := by
  cases x <;> simp [isRecv]

theorem onRx_receives {b : Byte} (h : isRecv s.seq.st = true) : onRx b s = receiveByte b s := by
  obtain hst | hst := isRecv_iff.1 h <;> simp only [onRx, hst]

/-- A byte that leaves the receive running. -/
theorem receiveByte_goes_on {b : Byte} (h : consume b s = (t, none)) : receiveByte b s = t := by
  rw [receiveByte, h]

/-- A byte that completes a terminal line. -/
theorem receiveByte_ends {b : Byte} {o : RxOutcome} (h : consume b s = (t, some o)) : receiveByte b s = endRecv o t := by
  rw [receiveByte, h]

theorem onDrainDone_xDrain (h : s.seq.st = .xDrain) :
    onDrainDone s = waitIn s.cfg.settleMs .xSettle enterRecv s := by
  simp only [onDrainDone, h]

theorem onDrainDone_rawDrain (h : s.seq.st = .rawDrain) : onDrainDone s =
    if s.seq.rawPos + s.seq.rawCur = s.seq.rawN then waitIn s.cfg.rawSettleMs .rawSettle enterRecv (chunkDrained s)
    else waitIn s.cfg.paceMs .rawPace rawChunk (chunkDrained s) := by
  simp only [onDrainDone, h]
  rfl

theorem onChErr_exchange (h : isExchange s.seq.st = true) : onChErr s = endExchange .invalid s := by
  cases hst : s.seq.st with
  | xDrain | xSettle | xRecv => simp only [onChErr, hst]
  | _ => rw [hst] at h; cases h

theorem onChErr_rawRecv (h : s.seq.st = .rawRecv) : onChErr s = endRaw .invalid s := by
  simp only [onChErr, h]

theorem onChErr_writing (h : s.seq.st = .rawDrain ∨ s.seq.st = .rawPace ∨ s.seq.st = .rawSettle) :
    onChErr s = finish .channelError (setOutcome .invalid s) := by
  obtain hst | hst | hst := h <;> simp only [onChErr, hst]

theorem onChErr_ignored (h : s.seq.st = .idle ∨ s.seq.st = .backoff) : onChErr s = s.setCherrIgn := by
  obtain hst | hst := h <;> simp only [onChErr, hst]

/-! ### How a receive begins (42_at_sequencer R178) -/

/-- The state as a receive with budget `T` begins to parse, with the queue `q` still to come. -/
def opened (T : Word) (q : List Byte) (s : State) : State :=
  { s with
    rxq := q
    parser := { line := [], payload := none, budget := T, remaining := T, pollTicks := 0, emptyPolls := 0 }
    seq := { s.seq with st := if s.seq.kind = .raw then .rawRecv else .xRecv } }

theorem openRecv_setRxq {T : Word} (hT : recvBudget s = T) (q : List Byte) : (openRecv s).setRxq q = opened T q s :=
  hT ▸ rfl

/-- What a receive that has begun ends with: its own kind's end. -/
theorem endRecv_opened {T : Word} {q : List Byte} (o : RxOutcome) (h : t.seq = (opened T q s).seq) :
    endRecv o t = if s.seq.kind = .raw then endRaw o t else endExchange o t := by
  rw [endRecv_eq o h]
  by_cases hk : s.seq.kind = .raw <;> simp [opened, hk]

/-- A queue without a terminal line, in a receive that has time. -/
theorem enterRecv_of_consumeAll {T : Word} (hT : recvBudget s = T) (h : consumeAll s.rxq (opened T [] s) = some t) :
    enterRecv s = if T = 0 then endByTimeout t else t := by
  have hbudget : t.parser.budget = T := (consumeAll_keeps h).2
  have hall : drainQueue s.rxq (openRecv s) = (t, true) :=
    drainQueue_all (s := openRecv s) (by rwa [openRecv_setRxq hT]) rfl
  simp only [enterRecv, hall, hbudget]

/-- A queue whose first terminal line ends with its byte `b`. -/
theorem enterRecv_of_terminal {T : Word} {p r : List Byte} {b : Byte} {u : State} {o : RxOutcome}
    (hT : recvBudget s = T) (hq : s.rxq = p ++ b :: r) (hp : consumeAll p (opened T r s) = some u)
    (hb : consume b u = (t, some o)) : enterRecv s = endRecv o t := by
  have hends : drainQueue s.rxq (openRecv s) = (endRecv o t, false) := by
    rw [hq]
    exact drainQueue_ends (by rwa [openRecv_setRxq hT]) hb
  simp only [enterRecv, hends]

theorem recvBudget_eq {T : Word}
    (h : (s.seq.kind = .soloProbe ∨ s.seq.kind = .readyProbe ∨ s.seq.kind = .retryProbe) ∧ T = s.cfg.probeTimeoutMs ∨
      (s.seq.kind = .cmd ∨ s.seq.kind = .raw) ∧ T = s.seq.tmo) : recvBudget s = T := by
  obtain ⟨hk | hk | hk, rfl⟩ | ⟨hk | hk, rfl⟩ := h <;> simp only [recvBudget, hk]

theorem endByTimeout_eq (s : State) :
    endByTimeout s = endRecv (if s.parser.payload = none then .timeout else .data) s := by
  obtain ⟨hp, h⟩ | ⟨hp, h⟩ := endByTimeout_cases s <;> simp [h, hp]

end

/-- Settles O34, by the equations of a byte and a DrainDone in each `st` and of the two ways a receive begins. -/
theorem rxAndDrainDoneByState : Obligations.RxAndDrainDoneByState := by
  refine ⟨fun s b rest hr => ⟨fun hi => ⟨fun hx hraw => ?_, fun hst t r hconsume => ?_⟩, fun hi => ⟨?_, ?_, ?_⟩⟩,
    fun s T hkind => ⟨fun t ht => ?_, fun p b r u t o hq hp hb => ?_⟩⟩
  · have hrecv : isRecv s.seq.st = false := Bool.eq_false_iff.2 (mt isRecv_iff.1 (by simp [hx, hraw]))
    rw [step_rx hr hi, onRx_queues (s := s.setInbox rest) hrecv, queueByte]
    exact ⟨fun hroom => by rw [if_pos (by exact hroom)]; rfl, fun hfull => by rw [if_neg (by exact hfull.not_gt)]; rfl⟩
  · have hseq : t.seq = s.seq := by
      simpa only [hconsume] using consume_seq b { s with inbox := rest }
    rw [step_rx hr hi, onRx_receives (s := s.setInbox rest) (isRecv_iff.2 hst)]
    constructor
    · rintro rfl
      rw [receiveByte_goes_on (s := s.setInbox rest) hconsume]
    · rintro o rfl
      rw [receiveByte_ends (s := s.setInbox rest) hconsume, endRecv_eq o hseq]
  · intro hx hraw
    rw [step_drainDone hr hi, onDrainDone_stale (s := s.setInbox rest) hx hraw]
    rfl
  · intro hst
    rw [step_drainDone hr hi, onDrainDone_xDrain (s := s.setInbox rest) hst, waitIn]
    exact ⟨fun hd => by rw [if_neg (by exact hd)]; rfl, fun hd => by rw [if_pos (by exact hd)]; rfl⟩
  · rintro hst pos t rfl rfl
    rw [step_drainDone hr hi, onDrainDone_rawDrain (s := s.setInbox rest) hst]
    refine ⟨fun hpos hd => ?_, fun hpos hd => ?_, fun hpos hd => ?_, fun hpos hd => ?_⟩
    · rw [if_neg (by exact hpos), waitIn, if_neg (by exact hd)]
      rfl
    · rw [if_neg (by exact hpos), waitIn, if_pos (by exact hd)]
      rfl
    · rw [if_pos (by exact hpos), waitIn, if_neg (by exact hd)]
      rfl
    · rw [if_pos (by exact hpos), waitIn, if_pos (by exact hd)]
      rfl
  · rw [enterRecv_of_consumeAll (recvBudget_eq hkind) ht, endByTimeout_eq,
      endRecv_opened (s := s) (T := T) (q := []) _ (consumeAll_keeps ht).1]
  · have hseq : t.seq = (opened T r s).seq :=
      calc t.seq = u.seq := by simpa only [hb] using consume_seq b u
        _ = (opened T r s).seq := (consumeAll_keeps hp).1
    rw [enterRecv_of_terminal (recvBudget_eq hkind) hq hp hb, endRecv_opened o hseq]

/-- Settles O39, by the equation of a channel error in each `st`. -/
theorem channelErrorOutsideReceives : Obligations.ChannelErrorOutsideReceives := by
  intro s rest hr hi
  rw [step_chErr hr hi]
  refine ⟨fun hst => ?_, fun hst => ?_, fun hst => ⟨_, rfl, ?_⟩, fun hst => ?_⟩
  · rw [onChErr_exchange (s := s.setInbox rest) (by obtain h | h | h := hst <;> rw [State.setInbox_seq, h] <;> rfl)]
    rfl
  · rw [onChErr_rawRecv (s := s.setInbox rest) hst]
    rfl
  · rw [onChErr_writing (s := s.setInbox rest) hst]
    exact ⟨rfl, rfl, rfl, rfl, rfl, rfl⟩
  · rw [onChErr_ignored (s := s.setInbox rest) hst]
    rfl

end Sys2Proof.Machine
end

section
/-! SUPPORT. One tick in each `st`, and runs of ticks: waits, silent receives and the payload timeout
(42_at_sequencer R174, R183, R193, R212). -/

namespace Sys2Proof.Machine

section
variable {s : State} {rest : List Event}

/-! ### One tick, by `st` (42_at_sequencer R174) -/

theorem tickAction_xSettle (h : s.seq.st = .xSettle) : tickAction s = countdown enterRecv s := by
  simp only [tickAction, h]

theorem tickAction_rawSettle (h : s.seq.st = .rawSettle) : tickAction s = countdown enterRecv s := by
  simp only [tickAction, h]

theorem tickAction_backoff (h : s.seq.st = .backoff) : tickAction s = countdown beginAttempt s := by
  simp only [tickAction, h]

theorem tickAction_rawPace (h : s.seq.st = .rawPace) : tickAction s = payloadTick (countdown rawChunk) s := by
  simp only [tickAction, h]

theorem tickAction_rawDrain (h : s.seq.st = .rawDrain) : tickAction s = payloadTick id s := by
  simp only [tickAction, h]

theorem tickAction_still (h : s.seq.st = .idle ∨ s.seq.st = .xDrain) : tickAction s = s := by
  obtain hst | hst := h <;> simp only [tickAction, hst]

theorem tickAction_receives (h : isRecv s.seq.st = true) : tickAction s = recvTick s := by
  obtain hst | hst := isRecv_iff.1 h <;> simp only [tickAction, hst]

theorem sub_one_eq_zero_iff (x : Word) : x - 1 = 0 ↔ x = 1 := by
  constructor <;> intro h <;> bv_omega

/-- The last tick of a wait is the one that finds a single tick left. -/
theorem countdown_eq (k : State → State) (s : State) :
    countdown k s = if s.seq.waitLeft = 1 then k (waitTick s) else waitTick s := by
  obtain ⟨h, he⟩ | ⟨h, he⟩ := countdown_cases k s <;> rw [he]
  · exact (if_pos ((sub_one_eq_zero_iff _).1 h)).symm
  · exact (if_neg (mt (sub_one_eq_zero_iff _).2 h)).symm

/-- Before the payload timeout, the tick that reaches it is the one that counts to it exactly. -/
theorem payloadTick_eq (k : State → State) (h : s.seq.rawElapsed < s.cfg.payloadTimeoutMs) : payloadTick k s =
    if s.seq.rawElapsed + 1 = s.cfg.payloadTimeoutMs then finish .timeoutError (countElapsed s)
    else k (countElapsed s) := by
  obtain ⟨hge, he⟩ | ⟨hlt, he⟩ := payloadTick_cases k s <;> rw [he]
  · have hge : s.seq.rawElapsed + 1 ≥ s.cfg.payloadTimeoutMs := hge
    exact (if_pos (by bv_omega)).symm
  · have hlt : s.seq.rawElapsed + 1 < s.cfg.payloadTimeoutMs := hlt
    exact (if_neg (by bv_omega)).symm

theorem recvTick_goes_on (h : KeepsReceiving (recvCountdown s)) : recvTick s = recvCountdown s :=
  (if_neg h.1).trans (if_neg h.2)

theorem recvTick_ends (h : ¬ KeepsReceiving (recvCountdown s)) : recvTick s = endByTimeout (recvCountdown s) := by
  by_cases hzero : (recvCountdown s).parser.remaining = 0
  · exact if_pos hzero
  · exact (if_neg hzero).trans (if_pos (by_contra fun hpolls => h ⟨hzero, hpolls⟩))

/-! ### Runs of steps -/

theorem afterEvents_succ {t : State} (h : step s = .next t) (n : Nat) : afterEvents (n + 1) s = afterEvents n t := by
  have hcore : Sys2Proof.core.step s = .next t := h
  have hrun : Sys2Proof.core.run (n + 1) s = Sys2Proof.core.run n t := by
    simp only [Host.Core.run, hcore]
  rw [afterEvents, afterEvents, hrun]

theorem afterEvents_add {m : Nat} {t : State} (h : afterEvents m s = some t) (n : Nat) :
    afterEvents (m + n) s = afterEvents n t := by
  induction m generalizing s with
  | zero => cases h; rw [Nat.zero_add]
  | succ m ih =>
    cases hstep : step s with
    | next u =>
      rw [afterEvents_succ hstep] at h
      rw [Nat.add_right_comm, afterEvents_succ hstep, ih h]
    | fault r => exact nomatch r
    | refused r =>
      have hcore : Sys2Proof.core.step s = .refused r := hstep
      simp [afterEvents, Host.Core.run, hcore] at h

theorem afterEvents_then {n : Nat} {u t : State} (h : afterEvents n s = some u) (hstep : step u = .next t) :
    afterEvents (n + 1) s = some t := by
  rw [afterEvents_add h, afterEvents_succ hstep]
  rfl

/-! ### Runs of ticks -/

/-- `s` after `k` ticks, with its control state and its parser as these ticks left them. -/
def ticked (k : Nat) (q : Seq) (p : Parser) (s : State) : State :=
  { s with
    inbox := s.inbox.drop k
    regs := { s.regs with now := s.regs.now + BitVec.ofNat 32 k }
    seq := q
    parser := p }

theorem ticked_zero (s : State) : ticked 0 s.seq s.parser s = s := by
  simp [ticked]

theorem ticked_inbox {n : Nat} (hi : s.inbox = List.replicate n .tick ++ rest) (q : Seq) (p : Parser) :
    (ticked n q p s).inbox = rest := by
  simp [ticked, hi]

theorem ticked_now (w : Word) (q : Seq) (p : Parser) : (ticked w.toNat q p s).regs.now = s.regs.now + w := by
  simp [ticked]

theorem add_ofNat_succ (x : Word) (k : Nat) : x + BitVec.ofNat 32 k + 1 = x + BitVec.ofNat 32 (k + 1) := by
  bv_omega

theorem sub_ofNat_succ (x : Word) (k : Nat) : x - BitVec.ofNat 32 k - 1 = x - BitVec.ofNat 32 (k + 1) := by
  bv_omega

theorem step_ticked {n k : Nat} (hr : s.inReset = false) (hi : s.inbox = List.replicate n .tick ++ rest) (hk : k < n)
    (q : Seq) (p : Parser) : step (ticked k q p s) = .next (tickAction (ticked (k + 1) q p s)) := by
  have hinbox : (ticked k q p s).inbox = .tick :: s.inbox.drop (k + 1) := by
    have hlen : k < s.inbox.length := by rw [hi]; simp; omega
    rw [show (ticked k q p s).inbox = s.inbox.drop k from rfl, List.drop_eq_getElem_cons hlen]
    simp [hi, hk, List.getElem_append_left]
  have hnow : advanceNow ((ticked k q p s).setInbox (s.inbox.drop (k + 1))) = ticked (k + 1) q p s := by
    simp only [advanceNow, ticked, State.setInbox, State.setRegs, add_ofNat_succ]
  rw [step_tick (s := ticked k q p s) hr hinbox, onTick, hnow]

/-- A run of ticks whose control state and parser after `k` of them are `q k` and `p k`. -/
theorem afterEvents_ticks {m : Nat} {q : Nat → Seq} {p : Nat → Parser} (hr : s.inReset = false)
    (hi : s.inbox = List.replicate (m + 1) .tick ++ rest) (hq : q 0 = s.seq) (hp : p 0 = s.parser)
    (hstep : ∀ k, k < m → tickAction (ticked (k + 1) (q k) (p k) s) = ticked (k + 1) (q (k + 1)) (p (k + 1)) s) :
    (∀ k, k < m + 1 → afterEvents k s = some (ticked k (q k) (p k) s)) ∧
    afterEvents (m + 1) s = some (tickAction (ticked (m + 1) (q m) (p m) s)) := by
  have hrun (k : Nat) (hk : k < m + 1) : afterEvents k s = some (ticked k (q k) (p k) s) := by
    induction k with
    | zero =>
      rw [hq, hp, ticked_zero]
      rfl
    | succ k ih =>
      rw [← hstep k (by omega)]
      exact afterEvents_then (ih (by omega)) (step_ticked hr hi (by omega) _ _)
  exact ⟨hrun, afterEvents_then (hrun m (by omega)) (step_ticked hr hi (by omega) _ _)⟩

/-! ### A wait that runs out (42_at_sequencer R193) -/

/-- The control state after `k` ticks of a wait. -/
def waitSeq (s : State) (k : Nat) : Seq := { s.seq with waitLeft := s.seq.waitLeft - BitVec.ofNat 32 k }

/-- `s` after `k` ticks of its wait. -/
def waited (k : Nat) (s : State) : State := ticked k (waitSeq s k) s.parser s

theorem waited_inbox {n : Nat} (hi : s.inbox = List.replicate n .tick ++ rest) : (waited n s).inbox = rest :=
  ticked_inbox hi _ _

theorem waited_now (s : State) : (waited s.seq.waitLeft.toNat s).regs.now = s.regs.now + s.seq.waitLeft :=
  ticked_now _ _ _

theorem waitTick_ticked (k : Nat) (s : State) : waitTick (ticked (k + 1) (waitSeq s k) s.parser s) = waited (k + 1) s := by
  simp only [waitTick, waited, ticked, waitSeq, State.setSeq, sub_ofNat_succ]

theorem afterEvents_wait {c : State → State} (hr : s.inReset = false) (hleft : s.seq.waitLeft ≠ 0)
    (hi : s.inbox = List.replicate s.seq.waitLeft.toNat .tick ++ rest)
    (hc : ∀ u : State, u.seq.st = s.seq.st → tickAction u = countdown c u) :
    (∀ k, k < s.seq.waitLeft.toNat → afterEvents k s = some (waited k s)) ∧
    afterEvents s.seq.waitLeft.toNat s = some (c (waited s.seq.waitLeft.toNat s)) := by
  obtain ⟨m, hm⟩ : ∃ m, s.seq.waitLeft.toNat = m + 1 := Nat.exists_eq_succ_of_ne_zero (by bv_omega)
  have haction (k : Nat) (hk : k < m + 1) : tickAction (ticked (k + 1) (waitSeq s k) s.parser s) =
      if k = m then c (waited (k + 1) s) else waited (k + 1) s := by
    have hlast : s.seq.waitLeft - BitVec.ofNat 32 k = 1 ↔ k = m := by
      constructor <;> intro h <;> bv_omega
    rw [hc (ticked (k + 1) (waitSeq s k) s.parser s) rfl, countdown_eq, waitTick_ticked]
    exact ite_congr (propext hlast) (fun _ => rfl) fun _ => rfl
  rw [hm] at hi ⊢
  obtain ⟨hbefore, hend⟩ := afterEvents_ticks (q := waitSeq s) (p := fun _ => s.parser) hr hi (by simp [waitSeq]) rfl
    fun k hk => (haction k (by omega)).trans (if_neg (by omega))
  exact ⟨hbefore, hend.trans (congrArg some ((haction m (by omega)).trans (if_pos rfl)))⟩

end

/-- Settles O41, by the run of a wait that ends with an attempt, and the equation of one tick in each state. -/
theorem backoffEndsOnTime : Obligations.BackoffEndsOnTime := by
  refine ⟨fun s rest hs hr hst hcancel hi => ?_, fun s t rest hr hi hleft ht => ?_, fun s rest hr hi => ?_⟩
  · obtain ⟨-, -, -, -, hwait, -⟩ := hs
    obtain ⟨hbefore, hend⟩ := afterEvents_wait (c := beginAttempt) hr (hwait (by rw [hst]; rfl)) hi
      fun u hu => tickAction_backoff (hu.trans hst)
    refine ⟨fun k hk => ⟨_, hbefore k hk, hst, rfl, rfl⟩, _, hend, ?_⟩
    rw [beginAttempt_sends (by exact hcancel)]
    exact ⟨rfl, rfl, rfl, waited_now s, rfl, rfl, rfl, waited_inbox hi⟩
  · subst ht
    rw [step_tick hr hi, onTick]
    refine ⟨fun hst => ?_, fun hst => ?_, fun hst htime => ⟨fun hlast => ?_, ?_⟩⟩
    · have hsettle : tickAction (advanceNow (s.setInbox rest)) = countdown enterRecv (advanceNow (s.setInbox rest)) :=
        hst.elim (tickAction_xSettle ·) (tickAction_rawSettle ·)
      rw [hsettle, countdown_eq]
      rfl
    · rw [tickAction_backoff (by exact hst), countdown_eq]
      rfl
    · rw [tickAction_rawPace (by exact hst), payloadTick_eq _ (by exact htime), if_pos (by exact hlast)]
      exact ⟨_, rfl, rfl, rfl, rfl, rfl, rfl, rfl⟩
    · rintro hmore u rfl
      rw [tickAction_rawPace (by exact hst), payloadTick_eq _ (by exact htime), if_neg (by exact hmore), countdown_eq]
      rfl
  · rw [step_tick hr hi, onTick]
    refine ⟨fun hst => ?_, fun hst htime hmore => ?_⟩
    · rw [tickAction_still (by exact hst)]
      rfl
    · rw [tickAction_rawDrain (by exact hst), payloadTick_eq _ (by exact htime), if_neg (by exact hmore)]
      rfl

/-! ### A drain without a DrainDone (42_at_sequencer R212) -/

/-- The control state after `k` ticks of a drain. -/
def drainSeq (s : State) (k : Nat) : Seq := { s.seq with rawElapsed := s.seq.rawElapsed + BitVec.ofNat 32 k }

theorem countElapsed_ticked (k : Nat) (s : State) :
    countElapsed (ticked (k + 1) (drainSeq s k) s.parser s) = ticked (k + 1) (drainSeq s (k + 1)) s.parser s := by
  simp only [countElapsed, ticked, drainSeq, State.setSeq, add_ofNat_succ]

/-- Settles O42: each tick of the drain counts raw_elapsed, and the n-th brings it to the payload timeout. -/
theorem payloadTimeoutEndsRaw : Obligations.PayloadTimeoutEndsRaw := by
  intro s rest n _ hr hst htime hn hi
  obtain ⟨m, rfl⟩ : ∃ m, n = m + 1 := Nat.exists_eq_succ_of_ne_zero (by bv_omega)
  have haction (k : Nat) (hk : k < m + 1) : tickAction (ticked (k + 1) (drainSeq s k) s.parser s) =
      if k = m then finish .timeoutError (ticked (k + 1) (drainSeq s (k + 1)) s.parser s)
      else ticked (k + 1) (drainSeq s (k + 1)) s.parser s := by
    have hmore : s.seq.rawElapsed + BitVec.ofNat 32 k < s.cfg.payloadTimeoutMs := by bv_omega
    have hlast : s.seq.rawElapsed + BitVec.ofNat 32 k + 1 = s.cfg.payloadTimeoutMs ↔ k = m := by
      constructor <;> intro h <;> bv_omega
    rw [tickAction_rawDrain (by exact hst), payloadTick_eq _ (by exact hmore), countElapsed_ticked]
    exact ite_congr (propext hlast) (fun _ => rfl) fun _ => rfl
  obtain ⟨hbefore, hend⟩ := afterEvents_ticks (q := drainSeq s) (p := fun _ => s.parser) hr hi (by simp [drainSeq]) rfl
    fun k hk => (haction k (by omega)).trans (if_neg (by omega))
  rw [haction m (by omega), if_pos rfl] at hend
  exact ⟨fun k hk => ⟨_, hbefore k hk, hst⟩, _, hend, rfl, rfl, rfl, rfl, rfl, rfl, rfl⟩

end Sys2Proof.Machine
end

section
/-! SUPPORT. A receive that hears nothing (42_at_sequencer R183, R184). -/

namespace Sys2Proof.Machine

/-! ### A silent receive (42_at_sequencer R183, R184) -/

/-- The parser after one tick of its countdown. -/
def polled (c : Params) (p : Parser) : Parser :=
  { p with
    remaining := p.remaining - 1
    pollTicks := if p.pollTicks + 1 = c.pollMs then 0 else p.pollTicks + 1
    emptyPolls := if p.pollTicks + 1 = c.pollMs then p.emptyPolls + 1 else p.emptyPolls }

/-- The parser after `k` ticks without a byte. -/
def polledFor (s : State) (k : Nat) : Parser := (polled s.cfg)^[k] s.parser

section
variable {s : State}

theorem recvCountdown_eq (s : State) : recvCountdown s = s.setParser (polled s.cfg s.parser) := rfl

theorem polledFor_succ (k : Nat) : polledFor s (k + 1) = polled s.cfg (polledFor s k) :=
  Function.iterate_succ_apply' _ _ _

theorem polledFor_payload (k : Nat) : (polledFor s k).payload = s.parser.payload := by
  induction k with
  | zero => rfl
  | succ k ih => rw [polledFor_succ]; exact ih

theorem polledFor_remaining (k : Nat) : (polledFor s k).remaining = s.parser.remaining - BitVec.ofNat 32 k := by
  induction k with
  | zero => simp [polledFor]
  | succ k ih =>
    rw [polledFor_succ, ← sub_ofNat_succ, ← ih]
    rfl

/-- Without a cap on empty polls only the countdown ends a receive. -/
theorem keepsReceiving_iff (h : s.cfg.maxEmptyPolls = 0) : KeepsReceiving s ↔ s.parser.remaining ≠ 0 := by
  simp [KeepsReceiving, h]

theorem recvCountdown_ticked (k : Nat) : recvCountdown (ticked (k + 1) s.seq (polledFor s k) s) =
    ticked (k + 1) s.seq (polledFor s (k + 1)) s := by
  rw [recvCountdown_eq, polledFor_succ]
  rfl

/-- A tick of a silent receive without a cap on empty polls. -/
theorem tickAction_silent {m k : Nat} (hst : isRecv s.seq.st = true) (hcap : s.cfg.maxEmptyPolls = 0)
    (hm : s.parser.remaining.toNat = m + 1) (hk : k < m + 1) : tickAction (ticked (k + 1) s.seq (polledFor s k) s) =
      if k = m then endByTimeout (ticked (k + 1) s.seq (polledFor s (k + 1)) s)
      else ticked (k + 1) s.seq (polledFor s (k + 1)) s := by
  have hkeeps : KeepsReceiving (ticked (k + 1) s.seq (polledFor s (k + 1)) s) ↔ k ≠ m := by
    rw [keepsReceiving_iff (by exact hcap), ne_eq, ne_eq, not_iff_not]
    show (polledFor s (k + 1)).remaining = 0 ↔ k = m
    rw [polledFor_remaining]
    constructor <;> intro h <;> bv_omega
  rw [tickAction_receives (by exact hst)]
  split_ifs with hkm
  · rw [recvTick_ends (by rw [recvCountdown_ticked, hkeeps]; exact not_not.2 hkm), recvCountdown_ticked]
  · rw [recvTick_goes_on (by rw [recvCountdown_ticked, hkeeps]; exact hkm), recvCountdown_ticked]

/-- A silent receive without a cap on empty polls ends when its countdown does. -/
theorem afterEvents_silent {n : Nat} {rest : List Event} (hr : s.inReset = false) (hst : isRecv s.seq.st = true)
    (hcap : s.cfg.maxEmptyPolls = 0) (hleft : s.parser.remaining ≠ 0) (hn : n = s.parser.remaining.toNat)
    (hi : s.inbox = List.replicate n .tick ++ rest) :
    (∀ k, k < n → afterEvents k s = some (ticked k s.seq (polledFor s k) s)) ∧
    afterEvents n s = some (endByTimeout (ticked n s.seq (polledFor s n) s)) := by
  obtain ⟨m, rfl⟩ : ∃ m, n = m + 1 := Nat.exists_eq_succ_of_ne_zero (by bv_omega)
  obtain ⟨hbefore, hend⟩ := afterEvents_ticks (q := fun _ => s.seq) (p := polledFor s) hr hi rfl rfl
    fun k hk => (tickAction_silent hst hcap hn.symm (by omega)).trans (if_neg (by omega))
  rw [tickAction_silent hst hcap hn.symm (by omega), if_pos rfl] at hend
  exact ⟨hbefore, hend⟩

/-- A stand-alone probe that times out without a payload (42_at_sequencer R184, R203). -/
theorem endByTimeout_soloProbe (hst : s.seq.st = .xRecv) (hk : s.seq.kind = .soloProbe)
    (hpay : s.parser.payload = none) : endByTimeout s = finish .timeoutError (setOutcome .timeout s) := by
  rw [endByTimeout_eq, if_pos hpay, endRecv, if_neg (by simp [hst]), endExchange_soloProbe hk]
  rfl

end

/-- Settles O31: each tick of a silent receive counts down and polls, and the last one ends it. -/
theorem silentReceiveTimesOut : Obligations.SilentReceiveTimesOut := by
  refine ⟨fun s rest hs hr hk hst hcap hpay hleft hi => ?_, fun s t rest polls hr hi hst _ hpolls ht => ?_⟩
  · obtain ⟨-, hbusy, -⟩ := hs
    obtain ⟨hbefore, hend⟩ := afterEvents_silent hr (isRecv_iff.2 (.inl hst)) hcap hleft rfl hi
    rw [endByTimeout_soloProbe (by exact hst) (by exact hk) (by exact (polledFor_payload _).trans hpay)] at hend
    refine ⟨fun k hk => ⟨_, hbefore k hk, hst, hbusy.2 (by simp [hst]), rfl⟩, _, hend, rfl, rfl, rfl, rfl, rfl, ?_⟩
    exact ⟨ticked_now _ s.seq (polledFor s s.parser.remaining.toNat), rfl, rfl,
      ticked_inbox hi s.seq (polledFor s s.parser.remaining.toNat)⟩
  · have hcount : recvCountdown (advanceNow (s.setInbox rest)) = t := by
      rw [ht, hpolls]
      rfl
    have hkeeps : KeepsReceiving t ↔
        s.parser.remaining ≠ 1 ∧ (s.cfg.maxEmptyPolls = 0 ∨ polls < s.cfg.maxEmptyPolls) := by
      rw [ht]
      show s.parser.remaining - 1 ≠ 0 ∧ ¬(s.cfg.maxEmptyPolls ≠ 0 ∧ polls ≥ s.cfg.maxEmptyPolls) ↔ _
      rw [ne_eq, sub_one_eq_zero_iff, not_and_or, not_not, ge_iff_le, BitVec.not_le]
    rw [step_tick hr hi, onTick, tickAction_receives (by exact isRecv_iff.2 hst)]
    refine ⟨fun hmore hcap => ?_, fun hlast o ho => ?_⟩
    · rw [recvTick_goes_on (by rw [hcount, hkeeps]; exact ⟨hmore, hcap⟩), hcount]
    · have hends : ¬ KeepsReceiving t := by
        rw [hkeeps]
        rintro ⟨hmore, hcap⟩
        obtain hone | ⟨hne, hle⟩ := hlast
        · exact hmore hone
        · exact hcap.elim hne (BitVec.not_lt.2 hle)
      rw [recvTick_ends (by rwa [hcount]), hcount, endByTimeout_eq, endRecv, ho, ht]

end Sys2Proof.Machine
end

section
/-! SUPPORT. A command that the device answers with ERROR on every attempt: the drain, the settle, the seven bytes, the
backoff (42_at_sequencer R192, R200, R221). -/

namespace Sys2Proof.Machine

section
variable {s : State} {rest : List Event}

/-! ### A wait of any length (42_at_sequencer R193) -/

/-- `wait(d, w)` and the `d` ticks after it lead to the continuation, a wait of 0 at once. -/
theorem afterEvents_waitIn {d : Word} {w : SeqState} {c : State → State} (hr : s.inReset = false)
    (hi : s.inbox = List.replicate d.toNat .tick ++ rest)
    (hc : ∀ u : State, u.seq.st = w → tickAction u = countdown c u) :
    ∃ st left, afterEvents d.toNat (waitIn d w c s) =
      some (c (ticked d.toNat { s.seq with st := st, waitLeft := left } s.parser s)) := by
  obtain ⟨rfl, hwait⟩ | ⟨hd, hwait⟩ := waitIn_cases d w c s <;> rw [hwait]
  · exact ⟨s.seq.st, s.seq.waitLeft, congrArg (fun u => some (c u)) (ticked_zero s).symm⟩
  · obtain ⟨-, hend⟩ := afterEvents_wait (s := s.setSeq { s.seq with waitLeft := d, st := w }) (c := c) hr hd hi hc
    exact ⟨w, _, hend⟩

/-! ### The bytes of a line (42_at_sequencer R179) -/

/-- A receive of budget `T` that has just got a byte and holds the line `l`, with the events `es` to come. -/
def hearing (T : Word) (l : List Byte) (es : List Event) (s : State) : State :=
  { s with
    inbox := es
    parser := { line := l, payload := none, budget := T, remaining := T, pollTicks := 0, emptyPolls := 0 } }

/-- A byte that does not end the receive. -/
theorem step_hearing {T : Word} {l l' : List Byte} {b : Byte} {es : List Event} (hr : s.inReset = false)
    (hst : isRecv s.seq.st = true) (hb : consume b (hearing T l es s) = (hearing T l' es s, none)) :
    step (hearing T l (.rx b :: es) s) = .next (hearing T l' es s) := by
  rw [step_rx (s := hearing T l (.rx b :: es) s) hr rfl, onRx_receives (by exact hst)]
  exact congrArg Host.Outcome.next (receiveByte_goes_on hb)

/-- Printable bytes extend the line. -/
theorem afterEvents_printable {T : Word} {bs : List Byte} {l : List Byte} {es : List Event} (hr : s.inReset = false)
    (hst : isRecv s.seq.st = true) (hbs : ∀ b ∈ bs, 0x20 ≤ b ∧ b ≤ 0x7E) (hlen : l.length + bs.length ≤ lineMax) :
    afterEvents bs.length (hearing T l (bs.map .rx ++ es) s) = some (hearing T (l ++ bs) es s) := by
  induction bs generalizing l with
  | nil => rw [List.append_nil]; rfl
  | cons b bs ih =>
    rw [List.length_cons] at hlen
    have hb : consume b (hearing T l (bs.map .rx ++ es) s) = (hearing T (l ++ [b]) (bs.map .rx ++ es) s, none) := by
      rw [consume_printable (hbs b (by simp)), if_pos (by simp only [hearing]; omega)]
      rfl
    have hrest := ih (l := l ++ [b]) (fun x hx => hbs x (by simp [hx]))
      (by rw [List.length_append, List.length_singleton]; omega)
    rw [List.append_assoc, List.singleton_append] at hrest
    exact (afterEvents_succ (step_hearing hr hst hb) _).trans hrest

/-- "ERROR\r\n" ends the exchange with ERROR. -/
theorem afterEvents_errorLine {T : Word} (hr : s.inReset = false) (hst : s.seq.st = .xRecv) :
    afterEvents 7 (hearing T [] ((errorLine ++ [0x0D, 0x0A]).map .rx ++ rest) s) =
      some (endExchange .error (hearing T [] rest s)) := by
  have hrecv : isRecv s.seq.st = true := isRecv_iff.2 (.inl hst)
  have hline := afterEvents_printable (T := T) (bs := errorLine) (l := [])
    (es := .rx 0x0D :: .rx 0x0A :: rest) hr hrecv (by decide) (by decide)
  have hcr : step (hearing T errorLine (.rx 0x0D :: .rx 0x0A :: rest) s) =
      .next (hearing T errorLine (.rx 0x0A :: rest) s) := step_hearing hr hrecv consume_cr
  have hlf : step (hearing T errorLine (.rx 0x0A :: rest) s) =
      .next (endExchange .error (hearing T [] rest s)) := by
    have hconsume : consume 0x0A (hearing T errorLine rest s) = (hearing T [] rest s, some .error) := by
      rw [consume_lf (by decide : errorLine ≠ [])]
      rfl
    rw [step_rx (s := hearing T errorLine (.rx 0x0A :: rest) s) hr rfl, onRx_receives (by exact hrecv)]
    refine congrArg Host.Outcome.next ((receiveByte_ends hconsume).trans ?_)
    rw [endRecv, if_neg (by simp [hearing, hst])]
  exact afterEvents_then (afterEvents_then hline hcr) hlf

/-! ### One attempt (42_at_sequencer R192, R200) -/

/-- A CMD exchange in its drain, without a cancellation, with an empty RXQ and time to receive. -/
structure CommandDrains (s : State) : Prop where
  inReset : s.inReset = false
  kind : s.seq.kind = .cmd
  st : s.seq.st = .xDrain
  cancelPend : s.status.cancelPend = false
  rxq : s.rxq = []
  tmo : s.seq.tmo ≠ 0

/-- `s` as it has settled and heard "ERROR\r\n", with the events `es` to come. -/
def errorHeard (left : Word) (es : List Event) (s : State) : State :=
  hearing s.seq.tmo [] es (ticked s.cfg.settleMs.toNat { s.seq with st := .xRecv, waitLeft := left } s.parser s)

/-- A receive that begins with an empty queue and time left. -/
theorem enterRecv_empty (hk : s.seq.kind = .cmd) (hq : s.rxq = []) (htmo : s.seq.tmo ≠ 0) :
    enterRecv s = opened s.seq.tmo [] s := by
  rw [enterRecv_of_consumeAll (T := s.seq.tmo) (by simp only [recvBudget, hk]) (by rw [hq]; rfl), if_neg htmo]

theorem length_errorAttempt (p : Params) : (errorAttempt p).length = (p.settleMs.toNat + 7) + 1 := by
  simp [errorAttempt, errorLine]

theorem afterEvents_errorAttempt (hs : CommandDrains s) (hi : s.inbox = errorAttempt s.cfg ++ rest) :
    ∃ left, afterEvents (errorAttempt s.cfg).length s = some (endExchange .error (errorHeard left rest s)) := by
  obtain ⟨hr, hk, hst, -, hq, htmo⟩ := hs
  let es : List Event := (errorLine ++ [0x0D, 0x0A]).map .rx ++ rest
  let u := s.setInbox (List.replicate s.cfg.settleMs.toNat .tick ++ es)
  have hdrained : step s = .next (waitIn s.cfg.settleMs .xSettle enterRecv u) := by
    have hevents : s.inbox = .drainDone :: (List.replicate s.cfg.settleMs.toNat .tick ++ es) := by
      rw [hi, errorAttempt, List.append_assoc, List.cons_append]
    rw [step_drainDone hr hevents, onDrainDone_xDrain (by exact hst)]
    rfl
  obtain ⟨st, left, hsettled⟩ :=
    afterEvents_waitIn (s := u) (w := .xSettle) (c := enterRecv) hr rfl fun _ h => tickAction_xSettle h
  have hopened : enterRecv (ticked s.cfg.settleMs.toNat { u.seq with st := st, waitLeft := left } u.parser u) =
      hearing s.seq.tmo [] es
        (ticked s.cfg.settleMs.toNat { s.seq with st := .xRecv, waitLeft := left } s.parser s) := by
    rw [enterRecv_empty (by exact hk) (by exact hq) (by exact htmo)]
    simp [opened, hearing, ticked, u, hq, hk]
  have hheard := afterEvents_errorLine (T := s.seq.tmo) (rest := rest)
    (s := ticked s.cfg.settleMs.toNat { s.seq with st := .xRecv, waitLeft := left } s.parser s) hr rfl
  rw [hopened] at hsettled
  refine ⟨left, ?_⟩
  rw [length_errorAttempt, afterEvents_succ hdrained, afterEvents_add hsettled, hheard]
  rfl

/-! ### What an ERROR leads to (42_at_sequencer R200, R221) -/

/-- `t` has started the attempt after the one of `s`, with the events `es` to come. -/
structure AttemptFollows (es : List Event) (s t : State) : Prop where
  drains : CommandDrains t
  cfg : t.cfg = s.cfg
  maxAtt : t.seq.maxAtt = s.seq.maxAtt
  attempts : t.status.attempts = s.status.attempts + 1
  flushes : t.trace.count .flush = s.trace.count .flush + 1
  now : t.regs.now = s.regs.now + BitVec.ofNat 32 (s.cfg.settleMs.toNat + s.cfg.errBackoffMs.toNat)
  inbox : t.inbox = es

/-- `t` has ended the command of `s` with PROTOCOL_ERROR, after `flushes` exchanges and `ticks` ticks. -/
structure CommandFailed (es : List Event) (flushes ticks : Nat) (s t : State) : Prop where
  inbox : t.inbox = es
  done : t.status.done = true
  busy : t.status.busy = false
  result : t.status.result = .protocolError
  outcome : t.status.outcome = .error
  attempts : t.status.attempts = s.seq.maxAtt
  flushes : t.trace.count .flush = s.trace.count .flush + flushes
  now : t.regs.now = s.regs.now + BitVec.ofNat 32 ticks

theorem count_flush_exchangeOutput (bs : List Byte) : (exchangeOutput bs).count .flush = 1 := by
  have hbytes : (bs.map OutEvent.tx).count .flush = 0 := List.count_eq_zero.2 (by simp)
  simp [exchangeOutput, List.count_append, hbytes]

theorem add_ofNat_add (x : Word) (a b : Nat) : x + BitVec.ofNat 32 a + BitVec.ofNat 32 b = x + BitVec.ofNat 32 (a + b) := by
  rw [BitVec.add_assoc, BitVec.ofNat_add]

/-- With attempts left an ERROR leads through the backoff to the next attempt. -/
theorem attemptFollows_error (hs : CommandDrains s) (hlt : s.status.attempts < s.seq.maxAtt)
    (hi : s.inbox = errorAttempt s.cfg ++ (List.replicate s.cfg.errBackoffMs.toNat .tick ++ rest)) :
    ∃ t, afterEvents ((errorAttempt s.cfg).length + s.cfg.errBackoffMs.toNat) s = some t ∧
      AttemptFollows rest s t := by
  obtain ⟨left, hheard⟩ := afterEvents_errorAttempt hs hi
  obtain ⟨hr, hk, -, hcancel, hq, htmo⟩ := hs
  rw [endExchange_failure (by exact hk) (.inl ⟨rfl, rfl, rfl⟩), if_pos (by exact hlt)] at hheard
  let v := errorHeard left (List.replicate s.cfg.errBackoffMs.toNat .tick ++ rest) s
  have hpend : (commandEnded .error v).status.cancelPend = false := commandEnded_cancelPend.trans hcancel
  have hmax : (commandEnded .error v).seq.maxAtt = v.seq.maxAtt := by rw [commandEnded_seq]
  have htmo' : (commandEnded .error v).seq.tmo = v.seq.tmo := by rw [commandEnded_seq]
  have htrace : (commandEnded .error v).trace = s.trace := commandEnded_trace
  have hnow : (commandEnded .error v).regs.now = s.regs.now + BitVec.ofNat 32 s.cfg.settleMs.toNat := commandEnded_now
  have hinbox : (commandEnded .error v).inbox = List.replicate s.cfg.errBackoffMs.toNat .tick ++ rest :=
    commandEnded_inbox
  have hdrop : (commandEnded .error v).inbox.drop s.cfg.errBackoffMs.toNat = rest := by rw [hinbox]; simp
  obtain ⟨st, left', hbacked⟩ := afterEvents_waitIn (w := .backoff) (c := beginAttempt) (d := s.cfg.errBackoffMs)
    (s := commandEnded .error v) (commandEnded_inReset.trans hr) hinbox fun _ h => tickAction_backoff h
  refine ⟨_, (afterEvents_add hheard _).trans hbacked, ?_⟩
  rw [beginAttempt_sends (by exact hpend)]
  have hdrains : CommandDrains (attemptStarted (ticked s.cfg.errBackoffMs.toNat
      { (commandEnded .error v).seq with st := st, waitLeft := left' } (commandEnded .error v).parser
      (commandEnded .error v))) :=
    ⟨commandEnded_inReset.trans hr, rfl, rfl, hpend, rfl, htmo'.trans_ne htmo⟩
  refine ⟨hdrains, commandEnded_cfg, hmax, congrArg (· + 1) commandEnded_attempts, ?_, ?_, hdrop⟩
  · rw [← htrace, ← count_flush_exchangeOutput (commandBytes (commandEnded .error v)), ← List.count_append]
    rfl
  · rw [← add_ofNat_add, ← hnow]
    rfl

/-- Without attempts left an ERROR ends the command. -/
theorem commandFailed_error (hs : CommandDrains s) (hlast : s.status.attempts = s.seq.maxAtt)
    (hi : s.inbox = errorAttempt s.cfg ++ rest) :
    ∃ t, afterEvents (errorAttempt s.cfg).length s = some t ∧ CommandFailed rest 0 s.cfg.settleMs.toNat s t := by
  obtain ⟨left, hheard⟩ := afterEvents_errorAttempt hs hi
  rw [endExchange_failure (by exact hs.kind) (.inl ⟨rfl, rfl, rfl⟩),
    if_neg (by rw [show (errorHeard left rest s).status = s.status from rfl, hlast]; exact BitVec.lt_irrefl _)] at hheard
  refine ⟨_, hheard, ?_⟩
  exact
    { inbox := commandEnded_inbox
      done := rfl
      busy := rfl
      result := rfl
      outcome := commandEnded_outcome
      attempts := commandEnded_attempts.trans hlast
      flushes := congrArg (List.count OutEvent.flush) commandEnded_trace
      now := commandEnded_now }

theorem commandFailed_errorRun {m : Nat} (hs : CommandDrains s)
    (hattempts : s.status.attempts.toNat + m = s.seq.maxAtt.toNat) (hi : s.inbox = errorRun s.cfg (m + 1) ++ rest) :
    ∃ t, afterEvents (errorRun s.cfg (m + 1)).length s = some t ∧
      CommandFailed rest m ((m + 1) * s.cfg.settleMs.toNat + m * s.cfg.errBackoffMs.toNat) s t := by
  induction m generalizing s with
  | zero =>
    have hlast := BitVec.eq_of_toNat_eq hattempts
    rw [Nat.zero_add, Nat.one_mul, Nat.zero_mul, Nat.add_zero]
    exact commandFailed_error hs hlast hi
  | succ m ih =>
    have hrun : errorRun s.cfg (m + 2) =
        errorAttempt s.cfg ++ (List.replicate s.cfg.errBackoffMs.toNat .tick ++ errorRun s.cfg (m + 1)) :=
      List.append_assoc _ _ _
    rw [hrun, List.append_assoc, List.append_assoc] at hi
    obtain ⟨u, hu, hnext⟩ := attemptFollows_error hs (by bv_omega) hi
    obtain ⟨t, ht, hfailed⟩ := ih hnext.drains
      (by rw [hnext.attempts, hnext.maxAtt]; bv_omega) (by rw [hnext.cfg]; exact hnext.inbox)
    refine ⟨t, ?_, ?_⟩
    · rw [hrun, List.length_append, List.length_append, List.length_replicate, ← Nat.add_assoc, afterEvents_add hu,
        ← hnext.cfg, ht]
    · rw [hnext.cfg] at hfailed
      exact
        { hfailed with
          attempts := hfailed.attempts.trans hnext.maxAtt
          flushes := by rw [hfailed.flushes, hnext.flushes]; omega
          now := by
            rw [hfailed.now, hnext.now, add_ofNat_add]
            congr 2
            ring }

end

/-- Settles O44, by induction on the attempts still to come: each but the last leads to the next one. -/
theorem errorOnEveryAttempt : Obligations.ErrorOnEveryAttempt := by
  intro s m rest _ hr hk hst hcancel hq htmo hm hattempts hi
  obtain ⟨m, rfl⟩ : ∃ k, m = k + 1 := Nat.exists_eq_succ_of_ne_zero (by omega)
  rw [Nat.add_sub_cancel] at hattempts ⊢
  obtain ⟨t, hrun, hinbox, hdone, hbusy, hresult, houtcome, hatt, hflushes, hnow⟩ :=
    commandFailed_errorRun ⟨hr, hk, hst, hcancel, hq, htmo⟩ hattempts hi
  exact ⟨t, hrun, hinbox, hdone, hbusy, hresult, houtcome, hatt, hflushes, hnow⟩

end Sys2Proof.Machine
end

section
/-! SUPPORT. Reset (70_reset_and_hazards R270 to R272): what the state after reset shows and keeps, what the
buffers hold after a release, and what a step does while reset is held. -/

namespace Sys2Proof.Machine

/-! ### The state after reset (70_reset R270) -/

/-- A block that is built and one that is released from reset differ only in their buffers and in what the environment
keeps, so the invariant of the release is that of the start. -/
theorem safe_resetWith {p : Params} (h : p.ok = true) : Safe (State.resetWith p) := by
  obtain ⟨hcfg, hctrl, hattempts, hoperands, ⟨hline, hprintable, hpayload, -⟩, hqueue, hresp, hout, hraw, -⟩ :=
    safe_resetRelease (s := State.resetWith p) h
  exact ⟨hcfg, hctrl, hattempts, hoperands, ⟨hline, hprintable, hpayload, nofun⟩, hqueue, hresp, hout, hraw,
    Memory.wf_nil⟩

/-- Settles O48: whatever legal parameters the configuration fixes. -/
theorem resetIsSafe : Obligations.ResetIsSafe := safe_resetWith params_ok

theorem Status.word_reset : Status.reset.word = 0 := by decide

theorem Seq.word_reset : Seq.reset.word = 0 := by decide

/-- The reset column of 10_state R21, register by register. -/
theorem readReg_resetWith (p : Params) (r : RegName) : readReg (State.resetWith p) r =
    if r.offset = 0x030 then 1024
    else if r.offset = 0x044 then p.defaultTimeoutMs
    else if r.offset = 0x048 then p.defaultRetries.zeroExtend 32
    else 0 := by
  cases r with
  | status => exact Status.word_reset
  | atState => exact Seq.word_reset
  | _ => rfl

theorem busReadValue_res {off : Offset} (h : target off = .res) (s : State) : busReadValue s off = 0 := by
  simp only [busReadValue, h]

/-- The register block holds registers and RES offsets and nothing else (10_state R21). -/
theorem target_registerBlock_cases {off : Offset} (halign : off.toNat % 4 = 0) (hblock : off.toNat < 0x100) :
    (∃ r : RegName, off = r.offset) ∨ target off = .res := by
  have htarget := target_registerBlock halign hblock
  cases hreg : regMap.lookup off.toNat with
  | none => exact .inr (by rw [htarget, hreg]; rfl)
  | some r => exact .inl ⟨r, target_eq_reg.1 (by rw [htarget, hreg]; rfl)⟩

/-- Settles O49: a register reads as the reset column says, and a RES offset, which is no register's, reads 0. -/
theorem resetValues : Obligations.ResetValues := by
  refine ⟨fun off hblock halign => ?_, rfl, rfl, rfl, rfl⟩
  obtain ⟨r, rfl⟩ | hres := target_registerBlock_cases halign hblock
  · rw [busReadValue_register (target_eq_reg.2 rfl)]
    exact readReg_resetWith Config.params r
  · have hne (r : RegName) : off ≠ r.offset := fun h => by
      rw [target_eq_reg.2 h] at hres
      cases hres
    rw [busReadValue_res hres, if_neg (show off ≠ 0x030 from hne .txtMax),
      if_neg (show off ≠ 0x044 from hne .atTimeout), if_neg (show off ≠ 0x048 from hne .atRetries)]

/-! ### The buffers after a release (70_reset R271) -/

/-- A canonical list of the values of `f` at some addresses reads as `f` there. -/
theorem Memory.read_listed_map (f : Nat → Byte) (l : List Nat) (a : Nat) :
    (Memory.listed (l.map fun k => (k, f k))).read a = if a ∈ l then f a else Memory.unlisted := by
  induction l with
  | nil => rfl
  | cons k l ih =>
    by_cases hk : f k = Memory.unlisted
    · have hskip : Memory.listed ((k :: l).map fun k => (k, f k)) = Memory.listed (l.map fun k => (k, f k)) := by
        simp [Memory.listed, hk]
      rw [hskip, ih]
      by_cases ha : a = k
      · simp [ha, hk]
      · simp [ha]
    · have hkeep : Memory.listed ((k :: l).map fun k => (k, f k)) =
          (k, f k) :: Memory.listed (l.map fun k => (k, f k)) := by
        simp [Memory.listed, hk]
      rw [hkeep]
      by_cases ha : a = k
      · rw [ha, Memory.read_head (k, f k), if_pos List.mem_cons_self]
      · rw [Memory.read_tail ha, ih]
        simp [ha]

/-- The buffers end with OUT (10_state R20). -/
theorem lt_of_inBuffers {a : Nat} (h : inBuffers a = true) : a < outBase + 4 * outCap := by
  unfold inBuffers txtBase txtCap cmdbufBase cmdCap markerBase markCap respBase lineMax outBase outCap at h
  simp only [Bool.or_eq_true, Bool.and_eq_true, decide_eq_true_eq] at h
  unfold outBase outCap
  omega

theorem Memory.read_afterReset (n a : Nat) :
    (Memory.afterReset n).read a = if inBuffers a = true then Config.ramAfterReset n a else Memory.unlisted := by
  have hmem : a ∈ (List.range (outBase + 4 * outCap)).filter inBuffers ↔ inBuffers a = true := by
    rw [List.mem_filter, List.mem_range]
    exact and_iff_right_of_imp lt_of_inBuffers
  rw [Memory.afterReset, Memory.read_listed_map]
  simp only [hmem]

theorem resetRelease_mem (s : State) : (resetRelease s).mem = Memory.afterReset s.resets := by
  rw [resetRelease]

/-! ### Steps around a reset (70_reset R270, R272) -/

theorem step_held {s : State} {e : Event} {rest : List Event} (hr : s.inReset = true) (hi : s.inbox = e :: rest) :
    step s = .next (heldEvent e (s.setInbox rest)) := by
  simp [step, hi, applyEvent, hr]

/-- Settles O50, by the two edges of the reset input and what it does to any event while it is held. -/
theorem resetInputForgets : Obligations.ResetInputForgets := by
  refine ⟨fun s rest hr => ⟨step_event hr, step_event hr⟩, fun s e rest hr hi => ⟨fun he => ?_, ?_⟩⟩
  · rw [step_held hr hi, heldEvent_ignored he]
    rfl
  · rintro rfl
    refine ⟨resetRelease (s.setInbox rest), step_held hr hi, rfl, rfl, rfl, rfl, rfl, rfl, rfl, rfl, ?_⟩
    rw [resetRelease_mem]
    exact ⟨Memory.wf_afterReset s.resets, Memory.read_afterReset s.resets⟩

end Sys2Proof.Machine
end

section
/-! SUPPORT. What a running op protects (70_reset_and_hazards R282; 42_at_sequencer R177): its operands and OUT, which
neither the host nor the at unit changes while BUSY. -/

namespace Sys2Proof.Machine

/-! ### The at unit writes no buffer but RESP (42_at_sequencer R206, R214) -/

/-- From `s` to `t` no byte outside RESP changes. The statement bounds the retained payload but not the line being received,
so this is followed through the unit's own functions and not through `UnitEvent`, which forgets that a terminal line is
never retained. -/
def OnlyResp (s t : State) : Prop := ∀ a, a < 0x1600 ∨ 0x1700 ≤ a → t.mem.read a = s.mem.read a

theorem OnlyResp.of_mem {s t : State} (h : t.mem = s.mem) : OnlyResp s t := fun _ _ => by rw [h]

theorem OnlyResp.trans {s t u : State} (h : OnlyResp s t) (k : OnlyResp t u) : OnlyResp s u :=
  fun a ha => (k a ha).trans (h a ha)

/-- RESP has room for the retained payload. -/
def PayloadFits (s : State) : Prop := ∀ p ∈ s.parser.payload, p.length ≤ 256

section
variable {s : State} {o : RxOutcome}

theorem commandEnded_onlyResp (h : PayloadFits s) : OnlyResp s (commandEnded o s) := by
  cases hp : s.parser.payload with
  | none => exact .of_mem (commandEnded_without_payload hp).1
  | some p =>
    have hlen : p.length ≤ 256 := h p hp
    intro a ha
    rw [(commandEnded_of_payload hp).1]
    refine Memory.read_write_outside ?_
    rw [respBase]
    omega

theorem beginAttempt_mem (s : State) : (beginAttempt s).mem = s.mem :=
  (State.recordView_inj (beginAttempt_recordView s)).1

theorem rawChunk_mem (s : State) : (rawChunk s).mem = s.mem :=
  (State.recordView_inj (rawChunk_recordView s)).1

theorem aliveIfOk_mem (o : RxOutcome) (s : State) : (aliveIfOk o s).mem = s.mem := by rw [aliveIfOk_eq]

/-- Only the end of a CMD exchange writes RESP (42_at_sequencer R194). -/
theorem endExchange_mem (hk : s.seq.kind ≠ .cmd) : (endExchange o s).mem = s.mem := by
  have hprobe : (aliveIfOk o (setOutcome o s)).mem = s.mem := aliveIfOk_mem o (setOutcome o s)
  cases hkind : s.seq.kind with
  | cmd => exact absurd hkind hk
  | none | raw => simp only [endExchange, hkind]
  | soloProbe => rw [endExchange_soloProbe hkind]; exact hprobe
  | readyProbe =>
    by_cases ho : o = .ok
    · subst ho
      rw [endExchange_readyProbe_ok hkind, beginAttempt_mem, hprobe]
    · rw [endExchange_readyProbe_failed hkind ho]; exact hprobe
  | retryProbe => rw [endExchange_retryProbe hkind, beginAttempt_mem, aliveIfOk_mem]

theorem endExchange_onlyResp (h : PayloadFits s) : OnlyResp s (endExchange o s) := by
  by_cases hk : s.seq.kind = .cmd
  · exact (commandEnded_onlyResp h).trans (.of_mem (keeps_response_of_end (.inl ⟨hk, rfl⟩)).1)
  · exact .of_mem (endExchange_mem hk)

theorem endRaw_onlyResp (h : PayloadFits s) : OnlyResp s (endRaw o s) :=
  commandEnded_onlyResp h

theorem endRecv_onlyResp (h : PayloadFits s) : OnlyResp s (endRecv o s) := by
  unfold endRecv
  split
  · exact endRaw_onlyResp h
  · exact endExchange_onlyResp h

theorem endByTimeout_onlyResp (h : PayloadFits s) : OnlyResp s (endByTimeout s) := by
  rw [endByTimeout_eq]
  exact endRecv_onlyResp h

/-! ### Received bytes (42_at_sequencer R173, R178) -/

theorem consume_mem (b : Byte) (s : State) : (consume b s).1.mem = s.mem := by rw [(consume_frame b s).state]

/-- A terminal line is "OK" or "ERROR", never a payload (42_at_sequencer R181). -/
theorem consume_terminal_payload {b : Byte} {t : State} (h : consume b s = (t, some o)) :
    t.parser.payload = s.parser.payload := by
  unfold consume consumeByte classify at h
  split_ifs at h <;> cases h <;> rfl

theorem receiveByte_onlyResp (b : Byte) (h : PayloadFits s) : OnlyResp s (receiveByte b s) := by
  have hmem := consume_mem b s
  cases hc : consume b s with
  | mk t r =>
    rw [hc] at hmem
    cases r with
    | none => rw [receiveByte_goes_on hc]; exact .of_mem hmem
    | some o =>
      have hfits : PayloadFits t := by rwa [PayloadFits, consume_terminal_payload hc]
      rw [receiveByte_ends hc]
      exact (OnlyResp.of_mem hmem).trans (endRecv_onlyResp hfits)

/-- A receive keeps lines, and so payloads, that RESP has room for, from its start on. -/
theorem drainQueue_onlyResp {q : List Byte} {t : State} {active : Bool} (h : FitsResp s.parser)
    (hq : drainQueue q s = (t, active)) : OnlyResp s t ∧ (active = true → FitsResp t.parser) := by
  induction q generalizing s with
  | nil => cases hq; exact ⟨.of_mem rfl, fun _ => h⟩
  | cons b q ih =>
    have hmem : (consume b (s.setRxq q)).1.mem = s.mem := consume_mem b (s.setRxq q)
    have hfits := fitsResp_consume b (s := s.setRxq q) h
    unfold drainQueue at hq
    split at hq
    · next u hu =>
      rw [hu] at hmem hfits
      obtain ⟨hrest, hactive⟩ := ih hfits hq
      exact ⟨(OnlyResp.of_mem hmem).trans hrest, hactive⟩
    · next u o hu =>
      rw [hu] at hmem hfits
      cases hq
      exact ⟨(OnlyResp.of_mem hmem).trans (endRecv_onlyResp hfits.2), nofun⟩

/-- A receive that begins forgets the line and the payload of the one before. -/
theorem enterRecv_onlyResp (s : State) : OnlyResp s (enterRecv s) := by
  have hopened : FitsResp (openRecv s).parser := ⟨Nat.zero_le _, nofun⟩
  unfold enterRecv
  split
  · next t ht =>
    obtain ⟨honly, hfits⟩ := drainQueue_onlyResp hopened ht
    split
    · exact OnlyResp.trans honly (endByTimeout_onlyResp (hfits rfl).2)
    · exact honly
  · next t ht => exact (drainQueue_onlyResp hopened ht).1

/-! ### The events of the at unit (42_at_sequencer R173 to R176) -/

theorem waitIn_onlyResp {k : State → State} (hk : ∀ u, OnlyResp u (k u)) (d : Word) (w : SeqState) (s : State) :
    OnlyResp s (waitIn d w k s) := by
  obtain ⟨-, h⟩ | ⟨-, h⟩ := waitIn_cases d w k s <;> rw [h]
  · exact hk s
  · exact .of_mem rfl

theorem countdown_onlyResp {k : State → State} (hk : ∀ u, OnlyResp u (k u)) (s : State) :
    OnlyResp s (countdown k s) := by
  obtain ⟨-, h⟩ | ⟨-, h⟩ := countdown_cases k s <;> rw [h]
  · exact hk _
  · exact .of_mem rfl

theorem payloadTick_onlyResp {k : State → State} (hk : ∀ u, OnlyResp u (k u)) (s : State) :
    OnlyResp s (payloadTick k s) := by
  obtain ⟨-, h⟩ | ⟨-, h⟩ := payloadTick_cases k s <;> rw [h]
  · exact .of_mem rfl
  · exact hk (countElapsed s)

theorem rawChunk_onlyResp (s : State) : OnlyResp s (rawChunk s) := .of_mem (rawChunk_mem s)

theorem recvTick_onlyResp (h : PayloadFits s) : OnlyResp s (recvTick s) := by
  by_cases hkeeps : KeepsReceiving (recvCountdown s)
  · rw [recvTick_goes_on hkeeps]; exact .of_mem rfl
  · rw [recvTick_ends hkeeps]; exact endByTimeout_onlyResp (s := recvCountdown s) h

theorem tickAction_onlyResp (h : PayloadFits s) : OnlyResp s (tickAction s) := by
  cases hst : s.seq.st with
  | idle => rw [tickAction_still (.inl hst)]; exact .of_mem rfl
  | xDrain => rw [tickAction_still (.inr hst)]; exact .of_mem rfl
  | xSettle => rw [tickAction_xSettle hst]; exact countdown_onlyResp enterRecv_onlyResp s
  | rawSettle => rw [tickAction_rawSettle hst]; exact countdown_onlyResp enterRecv_onlyResp s
  | backoff => rw [tickAction_backoff hst]; exact countdown_onlyResp (fun u => .of_mem (beginAttempt_mem u)) s
  | rawDrain => rw [tickAction_rawDrain hst]; exact payloadTick_onlyResp (fun _ => .of_mem rfl) s
  | rawPace => rw [tickAction_rawPace hst]; exact payloadTick_onlyResp (countdown_onlyResp rawChunk_onlyResp) s
  | xRecv | rawRecv => rw [tickAction_receives (by rw [hst]; rfl)]; exact recvTick_onlyResp h

theorem onRx_onlyResp (b : Byte) (h : PayloadFits s) : OnlyResp s (onRx b s) := by
  cases hst : isRecv s.seq.st
  · rw [onRx_queues hst, queueByte]
    split <;> exact .of_mem rfl
  · rw [onRx_receives hst]
    exact receiveByte_onlyResp b h

theorem onDrainDone_onlyResp (s : State) : OnlyResp s (onDrainDone s) := by
  by_cases hx : s.seq.st = .xDrain
  · rw [onDrainDone_xDrain hx]
    exact waitIn_onlyResp enterRecv_onlyResp _ _ s
  by_cases hraw : s.seq.st = .rawDrain
  · rw [onDrainDone_rawDrain hraw]
    split
    · exact waitIn_onlyResp enterRecv_onlyResp _ _ (chunkDrained s)
    · exact waitIn_onlyResp rawChunk_onlyResp _ _ (chunkDrained s)
  · rw [onDrainDone_stale hx hraw]
    exact .of_mem rfl

theorem onChErr_onlyResp (h : PayloadFits s) : OnlyResp s (onChErr s) := by
  cases hst : s.seq.st with
  | xDrain | xSettle | xRecv => rw [onChErr_exchange (by rw [hst]; rfl)]; exact endExchange_onlyResp h
  | rawRecv => rw [onChErr_rawRecv hst]; exact endRaw_onlyResp h
  | rawDrain | rawPace | rawSettle => rw [onChErr_writing (by simp [hst])]; exact .of_mem rfl
  | idle | backoff => rw [onChErr_ignored (by simp [hst])]; exact .of_mem rfl

end

/-! ### What no event changes while BUSY (70_reset R282) -/

/-- The operands of the AT ops and OUT_LEN. -/
def Regs.operands (x : Regs) : Word × Word × BitVec 8 × Word × Word :=
  (x.atCmdlen, x.atTimeout, x.atRetries, x.atMarklen, x.outLen)

/-- The operands in the registers, CMDBUF and MARKER, and the payload in OUT are the same in `s` and in `t`. -/
structure KeepsOperands (s t : State) : Prop where
  regs : t.regs.operands = s.regs.operands
  mem : ∀ a, (0x1400 ≤ a ∧ a < 0x1540) ∨ (0x2000 ≤ a ∧ a < 0x2800) → t.mem.read a = s.mem.read a

theorem KeepsOperands.of_same {s t : State} (hregs : t.regs.operands = s.regs.operands) (hmem : t.mem = s.mem) :
    KeepsOperands s t :=
  ⟨hregs, fun _ _ => by rw [hmem]⟩

theorem Moves.operands_eq {s t : State} (h : Moves s t) : t.regs.operands = s.regs.operands :=
  h.same (f := fun u => u.regs.operands) fun _ _ hm => by rw [hm.regs_frame]; rfl

/-- The at unit writes none of its operands (42_at_sequencer R177). -/
theorem KeepsOperands.of_unit {s t : State} (hregs : t.regs.operands = s.regs.operands) (hmem : OnlyResp s t) :
    KeepsOperands s t :=
  ⟨hregs, fun a ha => hmem a (by omega)⟩

/-- A host write while BUSY reaches no protected register and of the buffers only TXT (10_state R35, R41 to R44). -/
theorem BusWritten.keepsOperands {v : Word} {s t : State} (h : BusWritten v s t) (hb : s.status.busy = true) :
    KeepsOperands s t := by
  cases h with
  | ctrl => rw [writeCtrl_eq]; exact .of_same rfl rfl
  | register off => exact .of_same (by simp [Regs.operands, storedRegs, hb]) rfl
  | buffer a hplace =>
    obtain ⟨-, htxt⟩ | ⟨-, -, hidle⟩ := hplace
    · exact ⟨rfl, fun x hx => Memory.read_writeWord_outside s.mem v (by omega)⟩
    · rw [hb] at hidle
      cases hidle
  | rejected | busErr | nothing => exact .of_same rfl rfl

theorem runEvent_keepsOperands {e : Event} {s t : State} (hb : s.status.busy = true) (hp : PayloadFits s)
    (h : runEvent e s = .next t) : KeepsOperands s t := by
  obtain ⟨v, -, hc⟩ | ⟨off, v, -, -, rfl⟩ | ⟨off, -, rfl⟩ | ⟨-, rfl⟩ | ⟨b, -, rfl⟩ | ⟨-, rfl⟩ | ⟨-, rfl⟩ |
    ⟨-, rfl⟩ | ⟨-, rfl⟩ := runEvent_cases h
  · rw [command_busy hb] at hc
    cases hc
    exact .of_same rfl rfl
  · exact (busWritten off v s).keepsOperands hb
  · obtain ⟨w, h | h⟩ := busRead_cases off s <;> rw [h] <;> exact .of_same rfl rfl
  · exact .of_unit (tickAction_moves (advanceNow s)).operands_eq (tickAction_onlyResp (s := advanceNow s) hp)
  · exact .of_unit (onRx_moves b s).operands_eq (onRx_onlyResp b hp)
  · exact .of_unit (onChErr_moves s).operands_eq (onChErr_onlyResp hp)
  · exact .of_unit (onDrainDone_moves s).operands_eq (onDrainDone_onlyResp s)
  · exact .of_same rfl rfl
  · exact .of_same rfl rfl

theorem step_keepsOperands {s t : State} (hb : s.status.busy = true) (hp : PayloadFits s) (h : step s = .next t)
    (hrelease : ¬(s.inReset = true ∧ s.inbox.head? = some .resetRelease)) : KeepsOperands s t := by
  obtain ⟨-, rfl⟩ | ⟨e, es, hi, hr, rfl⟩ | ⟨e, es, -, -, hrun⟩ := step_cases h
  · exact .of_same rfl rfl
  · rw [heldEvent_ignored fun he => hrelease ⟨hr, by rw [hi, he]; rfl⟩]
    exact .of_same rfl rfl
  · obtain ⟨hregs, hmem⟩ := runEvent_keepsOperands (s := s.setInbox es) hb hp hrun
    exact ⟨hregs, hmem⟩

/-- Settles O54: while BUSY the host is refused and the at unit writes RESP alone. -/
theorem busyProtectsOperands : Obligations.BusyProtectsOperands := by
  intro s t hb hp h hrelease
  obtain ⟨hregs, hmem⟩ := step_keepsOperands hb hp h hrelease
  simp only [Regs.operands, Prod.mk.injEq] at hregs
  obtain ⟨hcmdlen, htimeout, hretries, hmarklen, houtLen⟩ := hregs
  exact ⟨hcmdlen, htimeout, hretries, hmarklen, houtLen, fun a hlo hhi => hmem a (by omega),
    fun a hlo hhi => hmem a (by omega), fun a hlo hhi => hmem a (by omega)⟩

end Sys2Proof.Machine
end
